-- ==== Sys2Proof/Word.lean ====
section
/-! DEFINITION. The value types of the machine: a cell or register of 8 bits, a word of 16 bits, a register index of
4 bits, a key code of 4 bits (00_scope.md R8, R12). -/

namespace Sys2Proof

/-- A `V` register, a memory cell, `DT` or `ST`: 8 bits (R8). -/
abbrev Byte := BitVec 8

/-- An instruction word, `I`, `PC` or a call-stack entry: 16 bits (R8). -/
abbrev Word := BitVec 16

/-- The number of a general register, 0 to 15 (R31). -/
abbrev Reg := Fin 16

/-- A key code, 0 to 15 (R200). -/
abbrev Key := BitVec 4

/-- `V0`, the register `BNNN` adds (R31, R143). -/
abbrev Reg.v0 : Reg := 0

/-- `VF`, the register that doubles as the flag (R34). -/
abbrev Reg.vf : Reg := 15

end Sys2Proof
end

