-- ==== Sys2Proof/Machine/Flags.lean ====
section
/-! DEFINITION. The values written to `VF` as a flag (10_state.md R34), each from exact numbers (44_alu.md R179). Shared
operations only; who writes them is the instruction families' business. -/

namespace Sys2Proof.Machine

/-- A flag's value in `VF`: 1 or 0. -/
def flagByte (b : Bool) : Byte := if b then 1 else 0

/-- `8XY4`: 1 if `a + b > 255`, else 0 (R174). -/
def carryFlag (a b : Byte) : Byte := flagByte (a.toNat + b.toNat > 255)

/-- `8XY5` and, with the operands exchanged, `8XY7`: 0 if `a < b`, else 1 (R175, R177). -/
def notBorrowFlag (a b : Byte) : Byte := flagByte (!(a.toNat < b.toNat))

/-- `8XY6`: bit 0 of the shift source (R176). -/
def shiftedOutLow (s : Byte) : Byte := flagByte (s.getLsbD 0)

/-- `8XYE`: bit 7 of the shift source (R178). -/
def shiftedOutHigh (s : Byte) : Byte := flagByte (s.getLsbD 7)

/-- `DXYN`: 1 if any toggle reported a collision, else 0 (R134). -/
def collisionFlag (coll : Bool) : Byte := flagByte coll

end Sys2Proof.Machine
end

