-- ==== Sys2Proof/Syntax.lean ====
section
/-! DEFINITION. The instruction set: one constructor per row of spec/opcode_table.json (30_encoding.md R105), in the
table's order. Operands are the fields of R102; which values an encoding admits is WellFormed.lean's. -/

namespace Sys2Proof

/-- The 34 instructions. `x`, `y` are register fields, `nn` the byte immediate, `nnn` the address immediate already widened
to 16 bits (`zext_16(NNN)`, R103), `n` the row count. -/
inductive Instr where
  /-- `00E0`, `CLS` (R133). -/
  | cls
  /-- `00EE`, `RET` (R140). -/
  | ret
  /-- `1NNN`, `JP nnn` (R141). -/
  | jp (nnn : Word)
  /-- `2NNN`, `CALL nnn` (R142). -/
  | call (nnn : Word)
  /-- `3XNN`, `SE Vx, nn` (R150). -/
  | seVxNn (x : Reg) (nn : Byte)
  /-- `4XNN`, `SNE Vx, nn` (R151). -/
  | sneVxNn (x : Reg) (nn : Byte)
  /-- `5XY0`, `SE Vx, Vy` (R152). -/
  | seVxVy (x y : Reg)
  /-- `6XNN`, `LD Vx, nn` (R160). -/
  | ldVxNn (x : Reg) (nn : Byte)
  /-- `7XNN`, `ADD Vx, nn` (R161). -/
  | addVxNn (x : Reg) (nn : Byte)
  /-- `8XY0`, `LD Vx, Vy` (R170). -/
  | ldVxVy (x y : Reg)
  /-- `8XY1`, `OR Vx, Vy` (R171). -/
  | orVxVy (x y : Reg)
  /-- `8XY2`, `AND Vx, Vy` (R172). -/
  | andVxVy (x y : Reg)
  /-- `8XY3`, `XOR Vx, Vy` (R173). -/
  | xorVxVy (x y : Reg)
  /-- `8XY4`, `ADD Vx, Vy` (R174). -/
  | addVxVy (x y : Reg)
  /-- `8XY5`, `SUB Vx, Vy` (R175). -/
  | subVxVy (x y : Reg)
  /-- `8XY6`, `SHR Vx, Vy` (R176). -/
  | shrVxVy (x y : Reg)
  /-- `8XY7`, `SUBN Vx, Vy` (R177). -/
  | subnVxVy (x y : Reg)
  /-- `8XYE`, `SHL Vx, Vy` (R178). -/
  | shlVxVy (x y : Reg)
  /-- `9XY0`, `SNE Vx, Vy` (R153). -/
  | sneVxVy (x y : Reg)
  /-- `ANNN`, `LD I, nnn` (R190). -/
  | ldINnn (nnn : Word)
  /-- `BNNN`, `JP V0, nnn` (R143). -/
  | jpV0Nnn (nnn : Word)
  /-- `CXNN`, `RND Vx, nn` (R162). -/
  | rndVxNn (x : Reg) (nn : Byte)
  /-- `DXYN`, `DRW Vx, Vy, n` (R134). -/
  | drwVxVyN (x y : Reg) (n : Nat)
  /-- `EX9E`, `SKP Vx` (R201). -/
  | skpVx (x : Reg)
  /-- `EXA1`, `SKNP Vx` (R202). -/
  | sknpVx (x : Reg)
  /-- `FX07`, `LD Vx, DT` (R210). -/
  | ldVxDt (x : Reg)
  /-- `FX0A`, `LD Vx, K` (R203). -/
  | ldVxK (x : Reg)
  /-- `FX15`, `LD DT, Vx` (R211). -/
  | ldDtVx (x : Reg)
  /-- `FX18`, `LD ST, Vx` (R212). -/
  | ldStVx (x : Reg)
  /-- `FX1E`, `ADD I, Vx` (R191). -/
  | addIVx (x : Reg)
  /-- `FX29`, `LD F, Vx` (R192). -/
  | ldFVx (x : Reg)
  /-- `FX33`, `LD B, Vx` (R221). -/
  | ldBVx (x : Reg)
  /-- `FX55`, `LD [I], Vx` (R222). -/
  | ldMemIVx (x : Reg)
  /-- `FX65`, `LD Vx, [I]` (R223). -/
  | ldVxMemI (x : Reg)
deriving DecidableEq, Repr

end Sys2Proof
end

