-- ==== Sys2Proof/WellFormed.lean ====
section
/-! DEFINITION. Which terms of Instr stand for an instruction of the ISA: every operand has a value its field can hold
(30_encoding.md R102, R103). Register and byte operands are bounded by their types. -/

namespace Sys2Proof

/-- An address immediate is 12 bits, 0 to 4095 (R102). -/
abbrev addressFits (nnn : Word) : Bool := nnn.toNat < 4096

/-- A row count is 4 bits, 0 to 15 (R102). -/
abbrev rowCountFits (n : Nat) : Bool := n < 16

/-- Every operand is one its encoding admits. -/
def Instr.wf : Instr → Bool
  | .cls => true
  | .ret => true
  | .jp nnn => addressFits nnn
  | .call nnn => addressFits nnn
  | .seVxNn _ _ => true
  | .sneVxNn _ _ => true
  | .seVxVy _ _ => true
  | .ldVxNn _ _ => true
  | .addVxNn _ _ => true
  | .ldVxVy _ _ => true
  | .orVxVy _ _ => true
  | .andVxVy _ _ => true
  | .xorVxVy _ _ => true
  | .addVxVy _ _ => true
  | .subVxVy _ _ => true
  | .shrVxVy _ _ => true
  | .subnVxVy _ _ => true
  | .shlVxVy _ _ => true
  | .sneVxVy _ _ => true
  | .ldINnn nnn => addressFits nnn
  | .jpV0Nnn nnn => addressFits nnn
  | .rndVxNn _ _ => true
  | .drwVxVyN _ _ n => rowCountFits n
  | .skpVx _ => true
  | .sknpVx _ => true
  | .ldVxDt _ => true
  | .ldVxK _ => true
  | .ldDtVx _ => true
  | .ldStVx _ => true
  | .addIVx _ => true
  | .ldFVx _ => true
  | .ldBVx _ => true
  | .ldMemIVx _ => true
  | .ldVxMemI _ => true

end Sys2Proof
end

