-- ==== Sys2Proof/Decode.lean ====
section
/-! DEFINITION. The decoder, total on every word and on any bytes, rejecting by name (30_encoding.md R104, R112), and after
it the encoder, written from the same encoding strings, and the opcode map of R105 as data. -/

namespace Sys2Proof

/-- Why bytes are no instruction. -/
inductive DecodeError where
  /-- The word matches no row of the opcode map (R112). -/
  | unmatchedPattern (w : Word)
  /-- Fewer than two bytes: no whole instruction word (R102). The machine's own fetch never meets this. -/
  | truncated
deriving DecidableEq, Repr

/-! ### Fields of a word (R102) -/

/-- `C = w[15:12]`, the opcode class. -/
def opClass (w : Word) : Nat := w.toNat / 4096

/-- `X = w[11:8]`. -/
def fieldX (w : Word) : Reg := Fin.ofNat 16 (w.toNat / 256)

/-- `Y = w[7:4]`. -/
def fieldY (w : Word) : Reg := Fin.ofNat 16 (w.toNat / 16)

/-- `N = w[3:0]`. -/
def fieldN (w : Word) : Nat := w.toNat % 16

/-- `NN = w[7:0]` as a number, the sub-opcode of classes E and F. -/
def subNN (w : Word) : Nat := w.toNat % 256

/-- `NN = w[7:0]` as a byte immediate. -/
def fieldNN (w : Word) : Byte := BitVec.ofNat 8 w.toNat

/-- `zext_16(NNN)` with `NNN = w[11:0]` (R103). -/
def fieldNNN (w : Word) : Word := BitVec.ofNat 16 (w.toNat % 4096)

/-! ### The decode procedure (R104) -/

/-- Class 0: the whole word must be `0x00E0` or `0x00EE`. -/
def decodeClass0 (w : Word) : Except DecodeError Instr :=
  if w = 0x00E0 then .ok .cls
  else if w = 0x00EE then .ok .ret
  else .error (.unmatchedPattern w)

/-- Class 8: `N` selects among 0 to 7 and `0xE`. -/
def decodeClass8 (w : Word) : Except DecodeError Instr :=
  match fieldN w with
  | 0x0 => .ok (.ldVxVy (fieldX w) (fieldY w))
  | 0x1 => .ok (.orVxVy (fieldX w) (fieldY w))
  | 0x2 => .ok (.andVxVy (fieldX w) (fieldY w))
  | 0x3 => .ok (.xorVxVy (fieldX w) (fieldY w))
  | 0x4 => .ok (.addVxVy (fieldX w) (fieldY w))
  | 0x5 => .ok (.subVxVy (fieldX w) (fieldY w))
  | 0x6 => .ok (.shrVxVy (fieldX w) (fieldY w))
  | 0x7 => .ok (.subnVxVy (fieldX w) (fieldY w))
  | 0xE => .ok (.shlVxVy (fieldX w) (fieldY w))
  | _ => .error (.unmatchedPattern w)

/-- Class E: `NN` must be `0x9E` or `0xA1`. -/
def decodeClassE (w : Word) : Except DecodeError Instr :=
  if subNN w = 0x9E then .ok (.skpVx (fieldX w))
  else if subNN w = 0xA1 then .ok (.sknpVx (fieldX w))
  else .error (.unmatchedPattern w)

/-- Class F: `NN` selects among nine values. -/
def decodeClassF (w : Word) : Except DecodeError Instr :=
  match subNN w with
  | 0x07 => .ok (.ldVxDt (fieldX w))
  | 0x0A => .ok (.ldVxK (fieldX w))
  | 0x15 => .ok (.ldDtVx (fieldX w))
  | 0x18 => .ok (.ldStVx (fieldX w))
  | 0x1E => .ok (.addIVx (fieldX w))
  | 0x29 => .ok (.ldFVx (fieldX w))
  | 0x33 => .ok (.ldBVx (fieldX w))
  | 0x55 => .ok (.ldMemIVx (fieldX w))
  | 0x65 => .ok (.ldVxMemI (fieldX w))
  | _ => .error (.unmatchedPattern w)

/-- The instruction a word is, or its rejection by name: R104, total on all 65536 words. -/
def decode (w : Word) : Except DecodeError Instr :=
  match opClass w with
  | 0x0 => decodeClass0 w
  | 0x1 => .ok (.jp (fieldNNN w))
  | 0x2 => .ok (.call (fieldNNN w))
  | 0x3 => .ok (.seVxNn (fieldX w) (fieldNN w))
  | 0x4 => .ok (.sneVxNn (fieldX w) (fieldNN w))
  | 0x5 => if fieldN w = 0 then .ok (.seVxVy (fieldX w) (fieldY w)) else .error (.unmatchedPattern w)
  | 0x6 => .ok (.ldVxNn (fieldX w) (fieldNN w))
  | 0x7 => .ok (.addVxNn (fieldX w) (fieldNN w))
  | 0x8 => decodeClass8 w
  | 0x9 => if fieldN w = 0 then .ok (.sneVxVy (fieldX w) (fieldY w)) else .error (.unmatchedPattern w)
  | 0xA => .ok (.ldINnn (fieldNNN w))
  | 0xB => .ok (.jpV0Nnn (fieldNNN w))
  | 0xC => .ok (.rndVxNn (fieldX w) (fieldNN w))
  | 0xD => .ok (.drwVxVyN (fieldX w) (fieldY w) (fieldN w))
  | 0xE => decodeClassE w
  | 0xF => decodeClassF w
  | _ => .error (.unmatchedPattern w)

/-! ### Words and the bytes that hold them (R74) -/

/-- The word two consecutive cells hold: the high byte stands at the lower address (R74). -/
def wordOfBytes (hi lo : Byte) : Word := BitVec.ofNat 16 (hi.toNat * 256 + lo.toNat)

/-- The cell at the lower address of a stored word. -/
def highByte (w : Word) : Byte := BitVec.ofNat 8 (w.toNat / 256)

/-- The cell at the higher address of a stored word. -/
def lowByte (w : Word) : Byte := BitVec.ofNat 8 w.toNat

/-- A word as the hardware stores it, lowest address first. -/
def bytesOfWord (w : Word) : List Byte := [highByte w, lowByte w]

/-- The first instruction of a list of bytes and the bytes after it. -/
def decodeBytes : List Byte → Except DecodeError (Instr × List Byte)
  | hi :: lo :: rest =>
    match decode (wordOfBytes hi lo) with
    | .ok i => .ok (i, rest)
    | .error e => .error e
  | _ => .error .truncated

/-- The instruction word whose bits, numbered as spec/opcode_table.json numbers them, are the low `nbits` of `w`: every
instruction is one word (R102), so bits above 15 are no bits of it. -/
def tableWord (nbits w : Nat) : Word := BitVec.ofNat 16 (w % 2 ^ nbits)

/-- What the decoder reads from the bytes of that word. -/
def decodeTableWord (nbits w : Nat) : Option Instr :=
  match decodeBytes (bytesOfWord (tableWord nbits w)) with
  | .ok (i, _) => some i
  | .error _ => none

/-! ### The encoder (R104's encoding strings) -/

/-- A word from its four nibbles, class first. -/
def pack (c x y n : Nat) : Word := BitVec.ofNat 16 (c * 4096 + x * 256 + y * 16 + n)

/-- Format `NNN`: `CCCC nnnn nnnn nnnn`. -/
def packNNN (c : Nat) (nnn : Word) : Word := BitVec.ofNat 16 (c * 4096 + nnn.toNat)

/-- Format `XNN`: `CCCC xxxx kkkk kkkk`. -/
def packXNN (c : Nat) (x : Reg) (nn : Byte) : Word := BitVec.ofNat 16 (c * 4096 + x.val * 256 + nn.toNat)

/-- Format `XY`: `CCCC xxxx yyyy ssss`. -/
def packXY (c : Nat) (x y : Reg) (sub : Nat) : Word := pack c x.val y.val sub

/-- Format `X`: `CCCC xxxx ssss ssss`. -/
def packX (c : Nat) (x : Reg) (sub : Nat) : Word := BitVec.ofNat 16 (c * 4096 + x.val * 256 + sub)

/-- The word of a well-formed instruction. -/
def encode : Instr → Word
  | .cls => 0x00E0
  | .ret => 0x00EE
  | .jp nnn => packNNN 0x1 nnn
  | .call nnn => packNNN 0x2 nnn
  | .seVxNn x nn => packXNN 0x3 x nn
  | .sneVxNn x nn => packXNN 0x4 x nn
  | .seVxVy x y => packXY 0x5 x y 0x0
  | .ldVxNn x nn => packXNN 0x6 x nn
  | .addVxNn x nn => packXNN 0x7 x nn
  | .ldVxVy x y => packXY 0x8 x y 0x0
  | .orVxVy x y => packXY 0x8 x y 0x1
  | .andVxVy x y => packXY 0x8 x y 0x2
  | .xorVxVy x y => packXY 0x8 x y 0x3
  | .addVxVy x y => packXY 0x8 x y 0x4
  | .subVxVy x y => packXY 0x8 x y 0x5
  | .shrVxVy x y => packXY 0x8 x y 0x6
  | .subnVxVy x y => packXY 0x8 x y 0x7
  | .shlVxVy x y => packXY 0x8 x y 0xE
  | .sneVxVy x y => packXY 0x9 x y 0x0
  | .ldINnn nnn => packNNN 0xA nnn
  | .jpV0Nnn nnn => packNNN 0xB nnn
  | .rndVxNn x nn => packXNN 0xC x nn
  | .drwVxVyN x y n => pack 0xD x.val y.val n
  | .skpVx x => packX 0xE x 0x9E
  | .sknpVx x => packX 0xE x 0xA1
  | .ldVxDt x => packX 0xF x 0x07
  | .ldVxK x => packX 0xF x 0x0A
  | .ldDtVx x => packX 0xF x 0x15
  | .ldStVx x => packX 0xF x 0x18
  | .addIVx x => packX 0xF x 0x1E
  | .ldFVx x => packX 0xF x 0x29
  | .ldBVx x => packX 0xF x 0x33
  | .ldMemIVx x => packX 0xF x 0x55
  | .ldVxMemI x => packX 0xF x 0x65

/-! ### The opcode map (R105) -/

/-- A row's mnemonic as spec/opcode_table.json spells it. -/
def Instr.mnemonic : Instr → String
  | .cls => "CLS"
  | .ret => "RET"
  | .jp _ => "JP_nnn"
  | .call _ => "CALL_nnn"
  | .seVxNn _ _ => "SE_Vx__nn"
  | .sneVxNn _ _ => "SNE_Vx__nn"
  | .seVxVy _ _ => "SE_Vx__Vy"
  | .ldVxNn _ _ => "LD_Vx__nn"
  | .addVxNn _ _ => "ADD_Vx__nn"
  | .ldVxVy _ _ => "LD_Vx__Vy"
  | .orVxVy _ _ => "OR_Vx__Vy"
  | .andVxVy _ _ => "AND_Vx__Vy"
  | .xorVxVy _ _ => "XOR_Vx__Vy"
  | .addVxVy _ _ => "ADD_Vx__Vy"
  | .subVxVy _ _ => "SUB_Vx__Vy"
  | .shrVxVy _ _ => "SHR_Vx__Vy"
  | .subnVxVy _ _ => "SUBN_Vx__Vy"
  | .shlVxVy _ _ => "SHL_Vx__Vy"
  | .sneVxVy _ _ => "SNE_Vx__Vy"
  | .ldINnn _ => "LD_I__nnn"
  | .jpV0Nnn _ => "JP_V0__nnn"
  | .rndVxNn _ _ => "RND_Vx__nn"
  | .drwVxVyN _ _ _ => "DRW_Vx__Vy__n"
  | .skpVx _ => "SKP_Vx"
  | .sknpVx _ => "SKNP_Vx"
  | .ldVxDt _ => "LD_Vx__DT"
  | .ldVxK _ => "LD_Vx__K"
  | .ldDtVx _ => "LD_DT__Vx"
  | .ldStVx _ => "LD_ST__Vx"
  | .addIVx _ => "ADD_I__Vx"
  | .ldFVx _ => "LD_F__Vx"
  | .ldBVx _ => "LD_B__Vx"
  | .ldMemIVx _ => "LD__I___Vx"
  | .ldVxMemI _ => "LD_Vx___I"

/-- One row of the opcode map: a word is that instruction exactly when `w AND mask = pattern` (R105). -/
structure OpcodeRow where
  /-- The row's mnemonic, the table's spelling. -/
  mnemonic : String
  /-- The row's `match` column. -/
  pattern : Word
  /-- The row's `mask` column. -/
  mask : Word
deriving DecidableEq, Repr

/-- R105's `w AND mask = match`. -/
def OpcodeRow.matchesWord (r : OpcodeRow) (w : Word) : Bool := w &&& r.mask == r.pattern

/-- The 34 rows of R105 in the table's order. -/
def opcodeMap : List OpcodeRow :=
  [
    ⟨"CLS", 0x00E0, 0xFFFF⟩,
    ⟨"RET", 0x00EE, 0xFFFF⟩,
    ⟨"JP_nnn", 0x1000, 0xF000⟩,
    ⟨"CALL_nnn", 0x2000, 0xF000⟩,
    ⟨"SE_Vx__nn", 0x3000, 0xF000⟩,
    ⟨"SNE_Vx__nn", 0x4000, 0xF000⟩,
    ⟨"SE_Vx__Vy", 0x5000, 0xF00F⟩,
    ⟨"LD_Vx__nn", 0x6000, 0xF000⟩,
    ⟨"ADD_Vx__nn", 0x7000, 0xF000⟩,
    ⟨"LD_Vx__Vy", 0x8000, 0xF00F⟩,
    ⟨"OR_Vx__Vy", 0x8001, 0xF00F⟩,
    ⟨"AND_Vx__Vy", 0x8002, 0xF00F⟩,
    ⟨"XOR_Vx__Vy", 0x8003, 0xF00F⟩,
    ⟨"ADD_Vx__Vy", 0x8004, 0xF00F⟩,
    ⟨"SUB_Vx__Vy", 0x8005, 0xF00F⟩,
    ⟨"SHR_Vx__Vy", 0x8006, 0xF00F⟩,
    ⟨"SUBN_Vx__Vy", 0x8007, 0xF00F⟩
  ] ++ [
    ⟨"SHL_Vx__Vy", 0x800E, 0xF00F⟩,
    ⟨"SNE_Vx__Vy", 0x9000, 0xF00F⟩,
    ⟨"LD_I__nnn", 0xA000, 0xF000⟩,
    ⟨"JP_V0__nnn", 0xB000, 0xF000⟩,
    ⟨"RND_Vx__nn", 0xC000, 0xF000⟩,
    ⟨"DRW_Vx__Vy__n", 0xD000, 0xF000⟩,
    ⟨"SKP_Vx", 0xE09E, 0xF0FF⟩,
    ⟨"SKNP_Vx", 0xE0A1, 0xF0FF⟩,
    ⟨"LD_Vx__DT", 0xF007, 0xF0FF⟩,
    ⟨"LD_Vx__K", 0xF00A, 0xF0FF⟩,
    ⟨"LD_DT__Vx", 0xF015, 0xF0FF⟩,
    ⟨"LD_ST__Vx", 0xF018, 0xF0FF⟩,
    ⟨"ADD_I__Vx", 0xF01E, 0xF0FF⟩,
    ⟨"LD_F__Vx", 0xF029, 0xF0FF⟩,
    ⟨"LD_B__Vx", 0xF033, 0xF0FF⟩,
    ⟨"LD__I___Vx", 0xF055, 0xF0FF⟩,
    ⟨"LD_Vx___I", 0xF065, 0xF0FF⟩
  ]

/-- The row of an instruction, found by its mnemonic. -/
def Instr.row? (i : Instr) : Option OpcodeRow := opcodeMap.find? (fun r => r.mnemonic == i.mnemonic)

end Sys2Proof
end

