-- ==== Sys2Proof/Config.lean ====
section
/-! DEFINITION. The parameters of 00_scope.md R7, one record fixed at construction, and the free values: what the spec
leaves open and gives no value. -/

namespace Sys2Proof

/-- The parameters of R7 that some rule depends on. The rates (`CYCLES_PER_SECOND`, `CHUNK_INTERVAL_MS`, `TIMER_HZ`) are
timing only (R6 (b), R290) and are not held. -/
structure Config where
  /-- `MEM_SIZE`: the number of memory cells. -/
  memSize : Nat
  /-- `PROGRAM_START`: the value of `PC` after reset. -/
  programStart : Word
  /-- `FONT_BASE`: the base address of `FX29`. -/
  fontBase : Word
  /-- `STACK_DEPTH`: how many entries the call stack holds. -/
  stackDepth : Nat
  /-- `DISPLAY_W`: the display port's `width()`. -/
  displayW : Nat
  /-- `DISPLAY_H`: the display port's `height()`. -/
  displayH : Nat
  /-- `QUIRK_LOGIC_VF_RESET`: `8XY1`, `8XY2`, `8XY3` write `VF <- 0`. -/
  quirkLogicVfReset : Bool
  /-- `QUIRK_SHIFT_USES_VY`: `8XY6`, `8XYE` shift `VY` (true) or `VX` (false). -/
  quirkShiftUsesVy : Bool
  /-- `QUIRK_DRAW_VF`: `DXYN` writes the collision result to `VF`. -/
  quirkDrawVf : Bool
deriving DecidableEq, Repr

namespace Config

/-- The legal ranges of R7. (R8's `PROGRAM_START + 1 < MEM_SIZE` is `startFits`: a configuration without it is legal and
its first fetch faults.) -/
abbrev legal (c : Config) : Prop :=
  2 ≤ c.memSize ∧ c.memSize ≤ 65536 ∧ 1 ≤ c.stackDepth ∧ 1 ≤ c.displayW ∧ 1 ≤ c.displayH

/-- R8: the first fetch is inside memory. -/
abbrev startFits (c : Config) : Prop := c.programStart.toNat + 1 < c.memSize

/-- FREE VALUE (DESIGN CHOICE, log 3): `FONT_BASE` is OPEN, no value in the source (R7). -/
opaque openFontBase : Word

/-- FREE VALUE (DESIGN CHOICE, log 3): `DISPLAY_W` is OPEN and at least 1 (R7); this is the width less one. -/
opaque openDisplayWLessOne : Nat

/-- FREE VALUE (DESIGN CHOICE, log 3): `DISPLAY_H` is OPEN and at least 1 (R7); this is the height less one. -/
opaque openDisplayHLessOne : Nat

/-- FREE VALUE (DESIGN CHOICE, log 6): the byte the random source answers on the `n`-th free draw (R163). -/
opaque freeRandomByte : Nat → Byte

/-- FREE VALUE (DESIGN CHOICE, log 8): whether the display pixel at column `x`, row `y` is set before anything was drawn
(R132: "its initial content is not specified"). -/
opaque powerOnPixel : Nat → Nat → Bool

/-- FREE VALUE (DESIGN CHOICE, log 7): the 16 key-down bits before the environment changes them (R200, R271). -/
opaque powerOnKeys : BitVec 16

/-- The configuration of `State.reset`: the spec's defaults where R7 gives one (DEDUCED, log 2), a free value where R7
says OPEN (log 3). Statements about all states hold for every configuration, not for this one alone. -/
def default : Config where
  memSize := 4096
  programStart := 0x200
  fontBase := openFontBase
  stackDepth := 16
  displayW := openDisplayWLessOne + 1
  displayH := openDisplayHLessOne + 1
  quirkLogicVfReset := true
  quirkShiftUsesVy := true
  quirkDrawVf := true

end Config

end Sys2Proof
end

