-- ==== Sys2Proof/Machine/State.lean ====
section
/-! DEFINITION. The machine's state as plain data: the tuple of 10_state.md R30, the configuration it was built with, the
environment's companion state (R50, R132, R200), and the coming external events (00_scope.md R9, R10). -/

namespace Sys2Proof.Machine

/-- Why `step` could stop with a fault. EMPTY: the spec's four faults are recorded in `FLT` and the machine goes on to a
halted NEXT state (60_exceptions.md R236, log 12), and the spec gives every other situation an effect. -/
inductive Fault where
deriving DecidableEq, Repr

/-- Why `step` could decline. -/
inductive Refusal where
  /-- Raised by an arm of `exec` whose instruction has no meaning yet (safe: the model stops). No arm raises it now. -/
  | notModelled (mnemonic : String)
deriving DecidableEq, Repr

/-- R48: whether the cycle scheduler and the timer cadence are issuing events. -/
inductive Sched where
  | stopped
  | started
deriving DecidableEq, Repr

/-- R230: the four synchronous exceptions; the list is closed. -/
inductive FaultCause where
  /-- The fetched word matches no row of the opcode map (R231). -/
  | invalidInstruction
  /-- `00EE` with an empty call stack (R232). -/
  | stackUnderflow
  /-- `2NNN` with a full call stack (R233). -/
  | stackOverflow
  /-- A cell index of an access is at or above `MEM_SIZE` (R234). -/
  | outOfBoundsAccess
deriving DecidableEq, Repr

/-- R49: the record of the one fault that stopped the core. -/
structure FaultRecord where
  cause : FaultCause
  /-- The address of the faulting instruction. -/
  pc : Word
  /-- What R231 to R234 name: the word, or 0, or the lowest out-of-range cell index. -/
  info : Nat
deriving DecidableEq, Repr

/-- A pixel position: column `x`, row `y` (R131). -/
structure Pixel where
  x : Nat
  y : Nat
deriving DecidableEq, Repr

/-- The frame buffer of R132 as the list of its set pixels, in row-major order with no repeats (log 8). -/
abbrev Frame := List Pixel

/-- Memory as the list of its nonzero cells in rising address order; an unlisted address reads as 0 (R45, log 16). -/
abbrev Memory := List Host.Cell

/-- The external events of R9, each raised by the agent its docstring names, each atomic. -/
inductive Event where
  /-- The cycle scheduler issues one `Cycle`; it does so only while `SCHED = STARTED` (R48, R246). -/
  | cycle
  /-- The timer cadence issues one `TimerTick`; it does so only while `SCHED = STARTED` (R213). -/
  | timerTick
  /-- The input capability reports that a key was released (R204). -/
  | keyRelease (code : Key)
  /-- The environment changes the 16 key-down bits (R200). -/
  | keysChange (down : BitVec 16)
  /-- The host loads bytes into memory (R250). -/
  | load (address : Nat) (bytes : List Byte)
  /-- The host loads glyph data into memory (R251). -/
  | loadFont (address : Nat) (bytes : List Byte)
  /-- The host resets the CORE (R252, R270). -/
  | reset
  /-- The host starts the scheduler and the timer cadence (R253). -/
  | start
  /-- The host stops them (R254). -/
  | stop
  /-- The host issues exactly one `Cycle` (R255). -/
  | step
  /-- The host issues a batch of `cycles` cycles (R256). -/
  | runChunk (cycles : Nat)
deriving DecidableEq, Repr

/-- The whole state. The fields down to `flt` are R30's tuple; the call stack is the list of its valid entries, oldest
first, as R41 allows (log 9). -/
structure State where
  /-- The parameters of R7, fixed at construction (log 1). -/
  cfg : Config
  /-- `V0..VF` (R31). -/
  v : Vector Byte 16
  /-- The index register `I` (R36). -/
  i : Word
  /-- The program counter (R38). -/
  pc : Word
  /-- `STK[0..SP-1]`; `SP` is its length (R41). -/
  stk : List Word
  /-- The delay timer (R44). -/
  dt : Byte
  /-- The sound timer (R44). -/
  st : Byte
  /-- `MEM` (R45). -/
  mem : Memory
  /-- `WAIT`: true is AWAITING_KEY (R46). -/
  wait : Bool
  /-- `WREG` (R47). -/
  wreg : Reg
  /-- `SCHED` (R48). -/
  sched : Sched
  /-- `FLT` (R49). -/
  flt : Option FaultRecord
  /-- The display's frame buffer, which the CORE does not own (R50, R132). -/
  fb : Frame
  /-- The 16 key-down bits, which the CORE does not own (R50, R200). -/
  keys : BitVec 16
  /-- THE MODEL'S OWN: random bytes the environment has already chosen, next first (R163, log 6). -/
  rndFeed : List Byte
  /-- THE MODEL'S OWN: how many free random bytes were drawn (R163, log 6). -/
  draws : Nat
  /-- THE MODEL'S OWN: the coming external events in the order the environment chose (R10, log 4). -/
  pending : List Event
deriving DecidableEq, Repr

/-- The three outcomes of an instruction or a step of this machine. -/
abbrev Result := Host.Outcome State Fault Refusal

/-- R132: before anything is drawn a pixel is set or not as the environment pleases (log 8). -/
def powerOnFrame (w h : Nat) : Frame :=
  (List.range h).flatMap fun y =>
    ((List.range w).filter fun x => Config.powerOnPixel x y).map fun x => ⟨x, y⟩

/-- The state at construction, which is the state after reset (R51, R270), for a configuration. What lies outside the CORE
is unspecified (R271): the frame buffer and the key-down bits are free values (logs 7 and 8). -/
def State.atConstruction (c : Config) : State where
  cfg := c
  v := Vector.replicate 16 0
  i := 0
  pc := c.programStart
  stk := []
  dt := 0
  st := 0
  mem := []
  wait := false
  wreg := 0
  sched := .stopped
  flt := none
  fb := powerOnFrame c.displayW c.displayH
  keys := Config.powerOnKeys
  rndFeed := []
  draws := 0
  pending := []

/-- The machine right after reset in the spec's default configuration (R51, log 2). -/
def State.reset : State := State.atConstruction Config.default

end Sys2Proof.Machine
end

