-- ==== Sys2Proof/Machine/Ops.lean ====
section
/-! DEFINITION. The named operations over registers, memory, the call stack, the timers, the display and the random
source, and taking a fault: the primitives of 00_scope.md R13. Shared by every instruction family. -/

namespace Sys2Proof.Machine

/-! ### Memory (20_memory.md) -/

/-- `MEM[a]`; an unlisted cell is 0 (R45, R73). -/
def Memory.read : Memory → Nat → Byte
  | [], _ => 0
  | (k, b) :: rest, a => if k = a then b else Memory.read rest a

/-- `MEM[a] <- b`, keeping the canonical form: writing 0 removes the entry (R73). -/
def Memory.write : Memory → Nat → Byte → Memory
  | [], a, b => if b = 0 then [] else [(a, b)]
  | (k, c) :: rest, a, b =>
    if a < k then (if b = 0 then (k, c) :: rest else (a, b) :: (k, c) :: rest)
    else if a = k then (if b = 0 then rest else (a, b) :: rest)
    else (k, c) :: Memory.write rest a b

/-- Consecutive cells from `a`, in ascending address order (R75). -/
def Memory.writeBytes (m : Memory) (a : Nat) : List Byte → Memory
  | [] => m
  | b :: bs => Memory.writeBytes (m.write a b) (a + 1) bs

/-- The canonical form: addresses strictly rising, no listed zero. -/
abbrev Memory.wf (m : Memory) : Prop :=
  List.Pairwise (fun c d => c.1 < d.1) m ∧ ∀ c ∈ m, c.2 ≠ 0

/-- Nothing is listed at or above `size`. -/
abbrev Memory.within (m : Memory) (size : Nat) : Prop := ∀ c ∈ m, c.1 < size

/-- R72: some of the `n` cells from `a` lies outside `[0, size)`; the address is the exact sum, never reduced. -/
def accessFails (size a n : Nat) : Bool := n > 0 && a + n - 1 ≥ size

/-- The lowest out-of-range cell index of an access that fails (R230, R234). -/
def lowestOutOfRange (size a : Nat) : Nat := max a size

/-! ### Registers and the program counter (10_state.md) -/

/-- `V[r]`. -/
def State.reg (s : State) (r : Reg) : Byte := s.v[r.val]

/-- `V[r] <- b`. -/
def State.setReg (s : State) (r : Reg) (b : Byte) : State := { s with v := s.v.set r.val b }

/-- `I <- w`. -/
def State.setI (s : State) (w : Word) : State := { s with i := w }

/-- `pc <- w`. -/
def State.setPc (s : State) (w : Word) : State := { s with pc := w }

/-- `npc = (PC + 2) mod 65536`, the sequential next address (R38, R100). -/
def State.npc (s : State) : Word := s.pc + 2

/-- `pc <- npc`: what an instruction with no control transfer commits (R38). -/
def State.advance (s : State) : State := s.setPc s.npc

/-- A taken skip commits `(npc + 2) mod 65536`, one not taken `npc` (R38, 42_skip.md). -/
def State.skipIf (s : State) (taken : Bool) : State := s.setPc (if taken then s.npc + 2 else s.npc)

/-- `DT <- b`. -/
def State.setDt (s : State) (b : Byte) : State := { s with dt := b }

/-- `ST <- b`. -/
def State.setSt (s : State) (b : Byte) : State := { s with st := b }

/-- The coming events become `es` (log 4). -/
def State.setPending (s : State) (es : List Event) : State := { s with pending := es }

/-! ### Multi-cell transfers (48_memory_transfer.md) -/

/-- The cells `bs` go to memory from address `a` on. -/
def State.store (s : State) (a : Nat) (bs : List Byte) : State := { s with mem := s.mem.writeBytes a bs }

/-- `V[0..last]` in order. -/
def State.regsUpTo (s : State) (last : Reg) : List Byte := s.v.toList.take (last.val + 1)

/-- `V[k] <- MEM[a + k]` for `k = 0` to `last`; the other registers keep their values (R223). -/
def State.loadRegs (s : State) (a : Nat) (last : Reg) : State :=
  { s with v := Vector.ofFn fun k => if k.val ≤ last.val then s.mem.read (a + k.val) else s.v[k.val] }

/-! ### The call stack (R41 to R43) -/

/-- `SP`, the number of valid entries. -/
def State.sp (s : State) : Nat := s.stk.length

/-- The valid entries become `ws`, oldest first. -/
def State.setStk (s : State) (ws : List Word) : State := { s with stk := ws }

/-- `Push(w)`: none when the stack holds `STACK_DEPTH` entries (R42). -/
def State.push (s : State) (w : Word) : Option State :=
  if s.sp = s.cfg.stackDepth then none else some (s.setStk (s.stk ++ [w]))

/-- `Pop()`: the newest entry and the state without it; none when the stack is empty (R43). -/
def State.pop (s : State) : Option (Word × State) :=
  match s.stk.getLast? with
  | none => none
  | some w => some (w, s.setStk s.stk.dropLast)

/-! ### Faults (60_exceptions.md) -/

/-- Taking a fault: the record is written with the address of the faulting instruction, the scheduler stops, nothing else
changes, `PC` included (R236). A NEXT state (log 12). There is no return from a fault (R239): only `hostReset` clears it. -/
def State.raise (s : State) (cause : FaultCause) (info : Nat) : Result :=
  .next { s with flt := some ⟨cause, s.pc, info⟩, sched := .stopped }

/-- The `OutOfBoundsAccess` of an access from address `a` (R234). -/
def State.raiseOutOfBounds (s : State) (a : Nat) : Result :=
  s.raise .outOfBoundsAccess (lowestOutOfRange s.cfg.memSize a)

/-- `Reset` (R270), beside the fault it alone clears: the CORE's state returns to its reset values; the configuration and
what lies outside the CORE stay (R50). -/
def State.hostReset (s : State) : State :=
  { s with
    v := Vector.replicate 16 0
    i := 0
    pc := s.cfg.programStart
    stk := []
    dt := 0
    st := 0
    mem := []
    wait := false
    wreg := 0
    sched := .stopped
    flt := none }

/-! ### Timers (R44, R213) -/

/-- A saturating decrement: never below zero. -/
def countDown (b : Byte) : Byte := if b = 0 then 0 else b - 1

/-- Both timers count down by at most one (R213). -/
def State.tickTimers (s : State) : State := { s with dt := countDown s.dt, st := countDown s.st }

/-! ### The random source (R163) -/

/-- `RandomByte()`: the byte the next draw answers. It is a free value; bytes the environment has already chosen come
first (log 6). -/
def State.randomByte (s : State) : Byte :=
  match s.rndFeed with
  | b :: _ => b
  | [] => Config.freeRandomByte s.draws

/-- The state after exactly one draw. -/
def State.afterDraw (s : State) : State :=
  match s.rndFeed with
  | _ :: rest => { s with rndFeed := rest }
  | [] => { s with draws := s.draws + 1 }

/-! ### The keypad (R200 to R204) -/

/-- `KeyPressed(k)`: the key-down bit of key `k`, with no side effect (R200). -/
def State.keyPressed (s : State) (k : Key) : Bool := s.keys.getLsbD k.toNat

/-- `FX0A`'s suspension: `WAIT <- 1`, `WREG <- r` (R203). -/
def State.awaitKey (s : State) (r : Reg) : State := { s with wait := true, wreg := r }

/-! ### The display port (R130 to R132) -/

/-- Row-major order of pixels. -/
def Pixel.before (p q : Pixel) : Bool := p.y < q.y || (p.y = q.y && p.x < q.x)

/-- `FB[y][x]`. -/
def Frame.lit (f : Frame) (p : Pixel) : Bool := decide (p ∈ f)

/-- `FB[y][x] <- 1 - FB[y][x]`, keeping the row-major order. -/
def Frame.toggle : Frame → Pixel → Frame
  | [], p => [p]
  | q :: rest, p =>
    if p = q then rest
    else if p.before q then p :: q :: rest
    else q :: Frame.toggle rest p

/-- The canonical form of a frame buffer of the given size. -/
abbrev Frame.wf (f : Frame) (w h : Nat) : Prop :=
  List.Pairwise (fun p q => p.before q = true) f ∧ ∀ p ∈ f, p.x < w ∧ p.y < h

/-- A sequence of `DisplayToggle` calls: the frame after them, and whether any of them answered 1 (R132, R134). -/
def Frame.toggleAll : Frame → List Pixel → Frame × Bool
  | f, [] => (f, false)
  | f, p :: ps =>
    let (f', coll) := Frame.toggleAll (f.toggle p) ps
    (f', f.lit p || coll)

/-- `DisplayClear()`: every pixel is unset (R130, R132). -/
def State.displayClear (s : State) : State := { s with fb := [] }

/-- `DisplayToggle` on each of `ps` in order. -/
def State.displayToggle (s : State) (ps : List Pixel) : State := { s with fb := (s.fb.toggleAll ps).1 }

/-- Whether any of those toggles reports a collision. -/
def State.collides (s : State) (ps : List Pixel) : Bool := (s.fb.toggleAll ps).2

/-! ### Placing an instruction word -/

/-- Where the next fetch can read two cells: `PC`, or 0 when `PC` lies at the end of memory (log 5). -/
def State.fetchablePc (s : State) : Word := if s.pc.toNat + 1 < s.cfg.memSize then s.pc else 0

/-- The word `w` stands where the next `Cycle` fetches, and nothing holds that `Cycle` back: no key wait, no recorded
fault, no event before it, and the scheduler started (log 5). -/
def State.placeWord (s : State) (w : Word) : State :=
  { s with
    pc := s.fetchablePc
    mem := s.mem.writeBytes s.fetchablePc.toNat (bytesOfWord w)
    wait := false
    sched := .started
    flt := none
    pending := [] }

end Sys2Proof.Machine
end

