-- ==== Sys2Proof/Machine/Operands.lean ====
section
/-! DEFINITION. Operand forms: the shift source, the key a register selects, the one addressing mode (base `I`, 48_memory_transfer.md
R220), the glyph address, decimal digits and the pixels of a sprite. -/

namespace Sys2Proof.Machine

/-- `8XY6`/`8XYE`: `V[Y]` if `QUIRK_SHIFT_USES_VY`, else `V[X]` (R176). -/
def State.shiftSource (s : State) (x y : Reg) : Byte := if s.cfg.quirkShiftUsesVy then s.reg y else s.reg x

/-- `EX9E`/`EXA1`: the low four bits of `V[X]` select the key (R201). -/
def State.selectedKey (s : State) (x : Reg) : Key := BitVec.ofNat 4 (s.reg x).toNat

/-- The base of every data access: the exact number `I` holds (R13, R220). -/
def State.base (s : State) : Nat := s.i.toNat

/-- Some of the `n` cells from `I` on lies outside memory (R72, R220). -/
def State.dataFails (s : State) (n : Nat) : Bool := accessFails s.cfg.memSize s.base n

/-- `FX29`: `(FONT_BASE + 5 * V[X]) mod 65536` (R192). -/
def State.glyphAddress (s : State) (x : Reg) : Word := BitVec.ofNat 16 (s.cfg.fontBase.toNat + 5 * (s.reg x).toNat)

/-- `FX33`: hundreds, tens, ones (R221). -/
def bcdDigits (b : Byte) : List Byte :=
  [BitVec.ofNat 8 (b.toNat / 100), BitVec.ofNat 8 (b.toNat / 10 % 10), BitVec.ofNat 8 (b.toNat % 10)]

/-- The toggles of one sprite row: bit 7 first, set bits only, columns past the right edge clipped, nothing at all when the
row is past the bottom edge (R134). -/
def spriteRow (w h x0 y : Nat) (b : Byte) : List Pixel :=
  if y < h then
    ((List.range 8).filter fun c => x0 + c < w && b.getLsbD (7 - c)).map fun c => ⟨x0 + c, y⟩
  else []

/-- `x0 = V[X] mod DISPLAY_W` (R134). -/
def State.startColumn (s : State) (x : Reg) : Nat := (s.reg x).toNat % s.cfg.displayW

/-- `y0 = V[Y] mod DISPLAY_H` (R134). -/
def State.startRow (s : State) (y : Reg) : Nat := (s.reg y).toNat % s.cfg.displayH

/-- Every `DisplayToggle` call of `DXYN`, in the order of R134: rows top to bottom, columns left to right. -/
def State.spriteToggles (s : State) (x y : Reg) (n : Nat) : List Pixel :=
  (List.range n).flatMap fun r =>
    spriteRow s.cfg.displayW s.cfg.displayH (s.startColumn x) (s.startRow y + r) (s.mem.read (s.base + r))

end Sys2Proof.Machine
end

