-- ==== Sys2Proof/Machine/Alu.lean ====
section
/-! DEFINITION. The meanings of the register-register instructions 8XY0 to 8XYE (44_alu.md). Operands are read before any write and the flag write is last (10_state.md R35). -/

namespace Sys2Proof.Machine

/-- `V[X] <- r`, then `V[0xF] <- flag`, then `pc <- npc` (R35). -/
def State.resultThenFlag (s : State) (x : Reg) (r flag : Byte) : State :=
  ((s.setReg x r).setReg Reg.vf flag).advance

/-- `V[X] <- r`, then `V[0xF] <- 0` if `QUIRK_LOGIC_VF_RESET`, then `pc <- npc` (R171 to R173). -/
def State.logicResult (s : State) (x : Reg) (r : Byte) : State :=
  if s.cfg.quirkLogicVfReset then s.resultThenFlag x r 0 else (s.setReg x r).advance

/-- `8XY0`, `LD Vx, Vy` (R170). -/
def execLdVxVy (x y : Reg) (s : State) : Result := .next (s.setReg x (s.reg y)).advance

/-- `8XY1`, `OR Vx, Vy` (R171). -/
def execOrVxVy (x y : Reg) (s : State) : Result := .next (s.logicResult x (s.reg x ||| s.reg y))

/-- `8XY2`, `AND Vx, Vy` (R172). -/
def execAndVxVy (x y : Reg) (s : State) : Result := .next (s.logicResult x (s.reg x &&& s.reg y))

/-- `8XY3`, `XOR Vx, Vy` (R173). -/
def execXorVxVy (x y : Reg) (s : State) : Result := .next (s.logicResult x (s.reg x ^^^ s.reg y))

/-- `8XY4`, `ADD Vx, Vy` (R174): the exact sum modulo 256, and the carry. -/
def execAddVxVy (x y : Reg) (s : State) : Result :=
  .next (s.resultThenFlag x (BitVec.ofNat 8 ((s.reg x).toNat + (s.reg y).toNat)) (carryFlag (s.reg x) (s.reg y)))

/-- `8XY5`, `SUB Vx, Vy` (R175): the exact difference modulo 256, and not-borrow. -/
def execSubVxVy (x y : Reg) (s : State) : Result :=
  .next (s.resultThenFlag x (BitVec.ofInt 8 ((s.reg x).toNat - (s.reg y).toNat : Int)) (notBorrowFlag (s.reg x) (s.reg y)))

/-- `8XY6`, `SHR Vx, Vy` (R176): the source of the quirk, shifted right by one. -/
def execShrVxVy (x y : Reg) (s : State) : Result :=
  .next (s.resultThenFlag x (BitVec.ofNat 8 ((s.shiftSource x y).toNat / 2)) (shiftedOutLow (s.shiftSource x y)))

/-- `8XY7`, `SUBN Vx, Vy` (R177): `V[Y] - V[X]`. -/
def execSubnVxVy (x y : Reg) (s : State) : Result :=
  .next (s.resultThenFlag x (BitVec.ofInt 8 ((s.reg y).toNat - (s.reg x).toNat : Int)) (notBorrowFlag (s.reg y) (s.reg x)))

/-- `8XYE`, `SHL Vx, Vy` (R178): the source of the quirk, shifted left by one, modulo 256. -/
def execShlVxVy (x y : Reg) (s : State) : Result :=
  .next (s.resultThenFlag x (BitVec.ofNat 8 ((s.shiftSource x y).toNat * 2)) (shiftedOutHigh (s.shiftSource x y)))

end Sys2Proof.Machine
end

