-- ==== Sys2Proof/Machine/Display.lean ====
section
/-! DEFINITION. The meanings of the display instructions 00E0 and DXYN (40_display.md). -/

namespace Sys2Proof.Machine

/-- `00E0`, `CLS` (R133): the display is asked to clear; no CORE state but `PC` changes. -/
def execCls (s : State) : Result := .next s.displayClear.advance

/-- `VF <- coll` when `QUIRK_DRAW_VF`, else `VF` is left alone (R134). -/
def State.writeCollision (s : State) (coll : Bool) : State :=
  if s.cfg.quirkDrawVf then s.setReg Reg.vf (collisionFlag coll) else s

/-- `DXYN`, `DRW Vx, Vy, n` (R134): all `n` cells are checked before any toggle; coordinates are read before `VF` is
written; `I` is not changed. -/
def execDrwVxVyN (x y : Reg) (n : Nat) (s : State) : Result :=
  if s.dataFails n then s.raiseOutOfBounds s.base
  else
    let ps := s.spriteToggles x y n
    .next ((s.displayToggle ps).writeCollision (s.collides ps)).advance

end Sys2Proof.Machine
end

