-- ==== Sys2Proof/Machine/Flow.lean ====
section
/-! DEFINITION. The meanings of the control transfers 00EE, 1NNN, 2NNN, BNNN (41_flow.md). Targets are not checked here (R39, R40). -/

namespace Sys2Proof.Machine

/-- `00EE`, `RET` (R140): pop the call stack into `PC`; an empty stack faults. -/
def execRet (s : State) : Result :=
  match s.pop with
  | none => s.raise .stackUnderflow 0
  | some (target, s') => .next (s'.setPc target)

/-- `1NNN`, `JP nnn` (R141). -/
def execJp (nnn : Word) (s : State) : Result := .next (s.setPc nnn)

/-- `2NNN`, `CALL nnn` (R142): push `npc`, the address after the call; a full stack faults. -/
def execCall (nnn : Word) (s : State) : Result :=
  match s.push s.npc with
  | none => s.raise .stackOverflow 0
  | some s' => .next (s'.setPc nnn)

/-- `BNNN`, `JP V0, nnn` (R143): always `V0`, and no 12-bit mask on the sum. -/
def execJpV0Nnn (nnn : Word) (s : State) : Result :=
  .next (s.setPc (nnn + (s.reg Reg.v0).setWidth 16))

end Sys2Proof.Machine
end

