-- ==== Sys2Proof/Machine/Immediate.lean ====
section
/-! DEFINITION. The meanings of the register-immediate instructions 6XNN, 7XNN, CXNN (43_immediate.md). -/

namespace Sys2Proof.Machine

/-- `6XNN`, `LD Vx, nn` (R160). -/
def execLdVxNn (x : Reg) (nn : Byte) (s : State) : Result := .next (s.setReg x nn).advance

/-- `7XNN`, `ADD Vx, nn` (R161): modulo 256, no flag. -/
def execAddVxNn (x : Reg) (nn : Byte) (s : State) : Result :=
  .next (s.setReg x (BitVec.ofNat 8 ((s.reg x).toNat + nn.toNat))).advance

/-- `CXNN`, `RND Vx, nn` (R162): exactly one draw, masked. -/
def execRndVxNn (x : Reg) (nn : Byte) (s : State) : Result :=
  .next (s.afterDraw.setReg x (s.randomByte &&& nn)).advance

end Sys2Proof.Machine
end

