-- ==== Sys2Proof/Machine/Index.lean ====
section
/-! DEFINITION. The meanings of the index-register instructions ANNN, FX1E, FX29 (45_index.md). None accesses memory. -/

namespace Sys2Proof.Machine

/-- `ANNN`, `LD I, nnn` (R190). -/
def execLdINnn (nnn : Word) (s : State) : Result := .next (s.setI nnn).advance

/-- `FX1E`, `ADD I, Vx` (R191): the one write of `I` masked to 12 bits; no flag. -/
def execAddIVx (x : Reg) (s : State) : Result :=
  .next (s.setI (BitVec.ofNat 16 ((s.i.toNat + (s.reg x).toNat) % 4096))).advance

/-- `FX29`, `LD F, Vx` (R192): the whole of `V[X]`, modulo 65536 only. -/
def execLdFVx (x : Reg) (s : State) : Result := .next (s.setI (s.glyphAddress x)).advance

end Sys2Proof.Machine
end

