-- ==== Sys2Proof/Machine/Keypad.lean ====
section
/-! DEFINITION. The meanings of the keypad instructions EX9E, EXA1, FX0A (46_keypad.md). -/

namespace Sys2Proof.Machine

/-- `EX9E`, `SKP Vx` (R201). -/
def execSkpVx (x : Reg) (s : State) : Result := .next (s.skipIf (s.keyPressed (s.selectedKey x)))

/-- `EXA1`, `SKNP Vx` (R202). -/
def execSknpVx (x : Reg) (s : State) : Result := .next (s.skipIf (!s.keyPressed (s.selectedKey x)))

/-- `FX0A`, `LD Vx, K` (R203): suspend until a key is released; `PC` moves past the instruction now, `V[X]` is written by
the release. -/
def execLdVxK (x : Reg) (s : State) : Result := .next (s.awaitKey x).advance

end Sys2Proof.Machine
end

