-- ==== Sys2Proof/Machine/Timers.lean ====
section
/-! DEFINITION. The meanings of the timer instructions FX07, FX15, FX18 (47_timers.md). -/

namespace Sys2Proof.Machine

/-- `FX07`, `LD Vx, DT` (R210). -/
def execLdVxDt (x : Reg) (s : State) : Result := .next (s.setReg x s.dt).advance

/-- `FX15`, `LD DT, Vx` (R211). -/
def execLdDtVx (x : Reg) (s : State) : Result := .next (s.setDt (s.reg x)).advance

/-- `FX18`, `LD ST, Vx` (R212). -/
def execLdStVx (x : Reg) (s : State) : Result := .next (s.setSt (s.reg x)).advance

end Sys2Proof.Machine
end

