-- ==== Sys2Proof/Machine/Transfer.lean ====
section
/-! DEFINITION. The meanings of the memory transfers FX33, FX55, FX65 (48_memory_transfer.md). Each checks its whole range before its first access (R14, R220). -/

namespace Sys2Proof.Machine

/-- `FX33`, `LD B, Vx` (R221): three decimal digits from `I` on; `I` is not changed. -/
def execLdBVx (x : Reg) (s : State) : Result :=
  if s.dataFails 3 then s.raiseOutOfBounds s.base
  else .next (s.store s.base (bcdDigits (s.reg x))).advance

/-- `FX55`, `LD [I], Vx` (R222): `V0..VX` from `I` on, and `I` advances by `X + 1`, modulo 65536 only. -/
def execLdMemIVx (x : Reg) (s : State) : Result :=
  if s.dataFails (x.val + 1) then s.raiseOutOfBounds s.base
  else .next ((s.store s.base (s.regsUpTo x)).setI (BitVec.ofNat 16 (s.base + x.val + 1))).advance

/-- `FX65`, `LD Vx, [I]` (R223): `V0..VX` from the cells at `I`; `I` is not changed. -/
def execLdVxMemI (x : Reg) (s : State) : Result :=
  if s.dataFails (x.val + 1) then s.raiseOutOfBounds s.base
  else .next (s.loadRegs s.base x).advance

end Sys2Proof.Machine
end

