-- ==== Sys2Proof/Machine/Cycle.lean ====
section
/-! DEFINITION. One `Cycle`: fetch, decode, execute, with the no-op cases and the order of the checks (30_encoding.md R100,
R101; 60_exceptions.md R238). -/

namespace Sys2Proof.Machine

/-- The word at `PC`, or none when one of its two cells lies outside memory; `PC + 1` is not reduced (R72, R74, R100). -/
def State.fetch (s : State) : Option Word :=
  if accessFails s.cfg.memSize s.pc.toNat 2 then none
  else some (wordOfBytes (s.mem.read s.pc.toNat) (s.mem.read (s.pc.toNat + 1)))

/-- R101: a `Cycle` does nothing while a key is awaited or a fault is recorded. -/
def State.held (s : State) : Bool := s.wait || s.flt.isSome

/-- Decode and execute a fetched word (R100, R231). -/
def State.runWord (s : State) (w : Word) : Result :=
  match decode w with
  | .ok i => exec i s
  | .error _ => s.raise .invalidInstruction w.toNat

/-- `Cycle` (R100, R101): fetch bounds first, then decode, then the instruction's own check (R238). -/
def cycle (s : State) : Result :=
  if s.held then .next s
  else
    match s.fetch with
    | none => s.raiseOutOfBounds s.pc.toNat
    | some w => s.runWord w

end Sys2Proof.Machine
end

