-- ==== Sys2Proof/Machine/Events.lean ====
section
/-! DEFINITION. The external events (00_scope.md R9; 46_keypad.md R204; 47_timers.md R213; 60_exceptions.md R250 to R256) and
which one a step takes (log 4). -/

namespace Sys2Proof.Machine

/-- A `Cycle` of the scheduler: issued only while STARTED (R48, R246); while STOPPED the event passes with no effect
(log 11). -/
def schedulerCycle (s : State) : Result :=
  match s.sched with
  | .started => cycle s
  | .stopped => .next s

/-- `TimerTick`: both timers count down, only while STARTED, whether or not a key is awaited (R213). -/
def State.timerTick (s : State) : State :=
  match s.sched with
  | .started => s.tickTimers
  | .stopped => s

/-- `KeyRelease(code)`: completes a pending `FX0A` and has no effect when none is pending, whatever `SCHED` and `FLT` are
(R204). -/
def State.keyRelease (s : State) (code : Key) : State :=
  if s.wait then { s.setReg s.wreg (code.setWidth 8) with wait := false } else s

/-- The environment sets the 16 key-down bits (R200). -/
def State.keysChange (s : State) (down : BitVec 16) : State := { s with keys := down }

/-- `Load(address, bytes)`: a load that does not fit is refused whole and changes nothing (R250). -/
def State.hostLoad (s : State) (address : Nat) (bytes : List Byte) : State :=
  if address + bytes.length ≤ s.cfg.memSize then s.store address bytes else s

/-- `LoadFont`: the same effect as `Load` (R251). -/
def State.hostLoadFont (s : State) (address : Nat) (bytes : List Byte) : State := s.hostLoad address bytes

/-- `Start`: STARTED, unless a fault is recorded (R253). -/
def State.hostStart (s : State) : State := if s.flt.isNone then { s with sched := .started } else s

/-- `Stop`: STOPPED; everything else is left untouched (R254). -/
def State.hostStop (s : State) : State := { s with sched := .stopped }

/-- `RunChunk`: a finite sequence of scheduler cycles, put at the head of the coming events (R256, log 10). -/
def State.hostRunChunk (s : State) (cycles : Nat) : State :=
  s.setPending (List.replicate cycles .cycle ++ s.pending)

/-- One external event, on the state without it. -/
def deliver (e : Event) (s : State) : Result :=
  match e with
  | .cycle => schedulerCycle s
  | .timerTick => .next s.timerTick
  | .keyRelease code => .next (s.keyRelease code)
  | .keysChange down => .next (s.keysChange down)
  | .load address bytes => .next (s.hostLoad address bytes)
  | .loadFont address bytes => .next (s.hostLoadFont address bytes)
  | .reset => .next s.hostReset
  | .start => .next s.hostStart
  | .stop => .next s.hostStop
  | .step => cycle s
  | .runChunk cycles => .next (s.hostRunChunk cycles)

/-- The next event: the first of the coming events, or, when the environment has chosen none, a `Cycle` of the scheduler,
which is none at all while STOPPED (R9, R10, R246, log 4). -/
def nextEvent (s : State) : Result :=
  match s.pending with
  | e :: rest => deliver e (s.setPending rest)
  | [] => schedulerCycle s

end Sys2Proof.Machine
end

