-- ==== Sys2Proof/Safety.lean ====
section
/-! DEFINITION. The vocabulary of claims: the run states (60_exceptions.md R246), the invariant of the machine, and, per
instruction, what the spec says it may write, where it stores and when it faults, written from the spec's tables and
independently of the meanings. -/

namespace Sys2Proof.Machine

/-! ### Run states -/

/-- The next step is a scheduler's `Cycle` that executes the instruction at `PC` (R246, first row). -/
abbrev State.ready (s : State) : Prop :=
  s.pending = [] ∧ s.sched = .started ∧ s.wait = false ∧ s.flt = none

/-- The core is halted by a recorded fault (R239). -/
abbrev State.faulted (s : State) : Prop := s.flt.isSome = true

/-- Both cells of the instruction at `PC` lie inside memory (R100). -/
abbrev State.fetchFits (s : State) : Prop := s.pc.toNat + 1 < s.cfg.memSize

/-- The word the two cells at `PC` hold, high byte first (R74). -/
abbrev State.wordAtPc (s : State) : Word := wordOfBytes (s.mem.read s.pc.toNat) (s.mem.read (s.pc.toNat + 1))

/-! ### The invariant -/

/-- What holds after reset and after every step: a legal configuration (R7); memory in canonical form with nothing listed
outside it (R45); at most `STACK_DEPTH` stack entries (R41); a frame buffer in canonical form inside the display (R132);
a recorded fault only while STOPPED (R246) and with an `info` that fits the fault port's 17 bits (R258). -/
structure State.Inv (s : State) : Prop where
  legal : s.cfg.legal
  memWf : s.mem.wf
  memWithin : s.mem.within s.cfg.memSize
  stackBounded : s.sp ≤ s.cfg.stackDepth
  frameWf : s.fb.wf s.cfg.displayW s.cfg.displayH
  faultStops : s.flt.isSome = true → s.sched = .stopped
  infoFits : ∀ r, s.flt = some r → r.info < 2 ^ 17

/-! ### The pixels of a sprite -/

/-- R134: the pixels `DXYN` toggles, as a region of the display: inside the `n` rows and 8 columns from the start
coordinate, inside the display (clipped, not wrapped), and over a set bit of the row, bit 7 leftmost. -/
def State.spriteCovers (s : State) (x y : Reg) (n : Nat) (p : Pixel) : Prop :=
  let x0 := (s.reg x).toNat % s.cfg.displayW
  let y0 := (s.reg y).toNat % s.cfg.displayH
  y0 ≤ p.y ∧ p.y < y0 + n ∧ p.y < s.cfg.displayH ∧
  x0 ≤ p.x ∧ p.x < x0 + 8 ∧ p.x < s.cfg.displayW ∧
  (s.mem.read (s.i.toNat + (p.y - y0))).getLsbD (7 - (p.x - x0)) = true

/-! ### The range check -/

/-- R234: the fault of a data access of `n` cells from `I` on, `n` at least 1. -/
def State.rangeFault (s : State) (n : Nat) : Option (FaultCause × Nat) :=
  if s.i.toNat + n - 1 ≥ s.cfg.memSize then some (.outOfBoundsAccess, max s.i.toNat s.cfg.memSize) else none

end Sys2Proof.Machine

namespace Sys2Proof

open Machine

/-! ### What an instruction may write (R33, R34, R36, R44) -/

/-- R33 and R34: the `V` registers an instruction writes, its flag among them. -/
def Instr.writesReg (c : Config) (i : Instr) (r : Reg) : Bool :=
  match i with
  | .cls => false
  | .ret => false
  | .jp _ => false
  | .call _ => false
  | .seVxNn _ _ => false
  | .sneVxNn _ _ => false
  | .seVxVy _ _ => false
  | .ldVxNn x _ => r = x
  | .addVxNn x _ => r = x
  | .ldVxVy x _ => r = x
  | .orVxVy x _ => r = x || (c.quirkLogicVfReset && r = Reg.vf)
  | .andVxVy x _ => r = x || (c.quirkLogicVfReset && r = Reg.vf)
  | .xorVxVy x _ => r = x || (c.quirkLogicVfReset && r = Reg.vf)
  | .addVxVy x _ => r = x || r = Reg.vf
  | .subVxVy x _ => r = x || r = Reg.vf
  | .shrVxVy x _ => r = x || r = Reg.vf
  | .subnVxVy x _ => r = x || r = Reg.vf
  | .shlVxVy x _ => r = x || r = Reg.vf
  | .sneVxVy _ _ => false
  | .ldINnn _ => false
  | .jpV0Nnn _ => false
  | .rndVxNn x _ => r = x
  | .drwVxVyN _ _ _ => c.quirkDrawVf && r = Reg.vf
  | .skpVx _ => false
  | .sknpVx _ => false
  | .ldVxDt x => r = x
  | .ldVxK _ => false
  | .ldDtVx _ => false
  | .ldStVx _ => false
  | .addIVx _ => false
  | .ldFVx _ => false
  | .ldBVx _ => false
  | .ldMemIVx _ => false
  | .ldVxMemI x => r ≤ x

/-- R36: the writers of `I` are `ANNN`, `FX1E`, `FX29` and `FX55`. -/
def Instr.writesI (i : Instr) : Bool :=
  match i with
  | .cls => false
  | .ret => false
  | .jp _ => false
  | .call _ => false
  | .seVxNn _ _ => false
  | .sneVxNn _ _ => false
  | .seVxVy _ _ => false
  | .ldVxNn _ _ => false
  | .addVxNn _ _ => false
  | .ldVxVy _ _ => false
  | .orVxVy _ _ => false
  | .andVxVy _ _ => false
  | .xorVxVy _ _ => false
  | .addVxVy _ _ => false
  | .subVxVy _ _ => false
  | .shrVxVy _ _ => false
  | .subnVxVy _ _ => false
  | .shlVxVy _ _ => false
  | .sneVxVy _ _ => false
  | .ldINnn _ => true
  | .jpV0Nnn _ => false
  | .rndVxNn _ _ => false
  | .drwVxVyN _ _ _ => false
  | .skpVx _ => false
  | .sknpVx _ => false
  | .ldVxDt _ => false
  | .ldVxK _ => false
  | .ldDtVx _ => false
  | .ldStVx _ => false
  | .addIVx _ => true
  | .ldFVx _ => true
  | .ldBVx _ => false
  | .ldMemIVx _ => true
  | .ldVxMemI _ => false

/-- R41: the call stack changes by `2NNN` and `00EE` only. -/
def Instr.writesStack (i : Instr) : Bool :=
  match i with
  | .cls => false
  | .ret => true
  | .jp _ => false
  | .call _ => true
  | .seVxNn _ _ => false
  | .sneVxNn _ _ => false
  | .seVxVy _ _ => false
  | .ldVxNn _ _ => false
  | .addVxNn _ _ => false
  | .ldVxVy _ _ => false
  | .orVxVy _ _ => false
  | .andVxVy _ _ => false
  | .xorVxVy _ _ => false
  | .addVxVy _ _ => false
  | .subVxVy _ _ => false
  | .shrVxVy _ _ => false
  | .subnVxVy _ _ => false
  | .shlVxVy _ _ => false
  | .sneVxVy _ _ => false
  | .ldINnn _ => false
  | .jpV0Nnn _ => false
  | .rndVxNn _ _ => false
  | .drwVxVyN _ _ _ => false
  | .skpVx _ => false
  | .sknpVx _ => false
  | .ldVxDt _ => false
  | .ldVxK _ => false
  | .ldDtVx _ => false
  | .ldStVx _ => false
  | .addIVx _ => false
  | .ldFVx _ => false
  | .ldBVx _ => false
  | .ldMemIVx _ => false
  | .ldVxMemI _ => false

/-- R50: the frame buffer changes by `00E0` and `DXYN` only. -/
def Instr.draws (i : Instr) : Bool :=
  match i with
  | .cls => true
  | .ret => false
  | .jp _ => false
  | .call _ => false
  | .seVxNn _ _ => false
  | .sneVxNn _ _ => false
  | .seVxVy _ _ => false
  | .ldVxNn _ _ => false
  | .addVxNn _ _ => false
  | .ldVxVy _ _ => false
  | .orVxVy _ _ => false
  | .andVxVy _ _ => false
  | .xorVxVy _ _ => false
  | .addVxVy _ _ => false
  | .subVxVy _ _ => false
  | .shrVxVy _ _ => false
  | .subnVxVy _ _ => false
  | .shlVxVy _ _ => false
  | .sneVxVy _ _ => false
  | .ldINnn _ => false
  | .jpV0Nnn _ => false
  | .rndVxNn _ _ => false
  | .drwVxVyN _ _ _ => true
  | .skpVx _ => false
  | .sknpVx _ => false
  | .ldVxDt _ => false
  | .ldVxK _ => false
  | .ldDtVx _ => false
  | .ldStVx _ => false
  | .addIVx _ => false
  | .ldFVx _ => false
  | .ldBVx _ => false
  | .ldMemIVx _ => false
  | .ldVxMemI _ => false

/-- R71: how many cells from `I` on an instruction writes: `FX33` three, `FX55` `X + 1`, every other none. -/
def Instr.storedCells (i : Instr) : Nat :=
  match i with
  | .cls => 0
  | .ret => 0
  | .jp _ => 0
  | .call _ => 0
  | .seVxNn _ _ => 0
  | .sneVxNn _ _ => 0
  | .seVxVy _ _ => 0
  | .ldVxNn _ _ => 0
  | .addVxNn _ _ => 0
  | .ldVxVy _ _ => 0
  | .orVxVy _ _ => 0
  | .andVxVy _ _ => 0
  | .xorVxVy _ _ => 0
  | .addVxVy _ _ => 0
  | .subVxVy _ _ => 0
  | .shrVxVy _ _ => 0
  | .subnVxVy _ _ => 0
  | .shlVxVy _ _ => 0
  | .sneVxVy _ _ => 0
  | .ldINnn _ => 0
  | .jpV0Nnn _ => 0
  | .rndVxNn _ _ => 0
  | .drwVxVyN _ _ _ => 0
  | .skpVx _ => 0
  | .sknpVx _ => 0
  | .ldVxDt _ => 0
  | .ldVxK _ => 0
  | .ldDtVx _ => 0
  | .ldStVx _ => 0
  | .addIVx _ => 0
  | .ldFVx _ => 0
  | .ldBVx _ => 3
  | .ldMemIVx x => x.val + 1
  | .ldVxMemI _ => 0

/-- R82: the three instructions that read or write a timer. -/
def Instr.usesTimer (i : Instr) : Bool :=
  match i with
  | .cls => false
  | .ret => false
  | .jp _ => false
  | .call _ => false
  | .seVxNn _ _ => false
  | .sneVxNn _ _ => false
  | .seVxVy _ _ => false
  | .ldVxNn _ _ => false
  | .addVxNn _ _ => false
  | .ldVxVy _ _ => false
  | .orVxVy _ _ => false
  | .andVxVy _ _ => false
  | .xorVxVy _ _ => false
  | .addVxVy _ _ => false
  | .subVxVy _ _ => false
  | .shrVxVy _ _ => false
  | .subnVxVy _ _ => false
  | .shlVxVy _ _ => false
  | .sneVxVy _ _ => false
  | .ldINnn _ => false
  | .jpV0Nnn _ => false
  | .rndVxNn _ _ => false
  | .drwVxVyN _ _ _ => false
  | .skpVx _ => false
  | .sknpVx _ => false
  | .ldVxDt _ => true
  | .ldVxK _ => false
  | .ldDtVx _ => true
  | .ldStVx _ => true
  | .addIVx _ => false
  | .ldFVx _ => false
  | .ldBVx _ => false
  | .ldMemIVx _ => false
  | .ldVxMemI _ => false

/-! ### When an instruction faults (R230, R235) -/

/-- R235: the fault an instruction raises after decode, with its `info`; none for the other 28. -/
def Instr.ownFault (i : Instr) (s : State) : Option (FaultCause × Nat) :=
  match i with
  | .cls => none
  | .ret => if s.sp = 0 then some (.stackUnderflow, 0) else none
  | .jp _ => none
  | .call _ => if s.sp = s.cfg.stackDepth then some (.stackOverflow, 0) else none
  | .seVxNn _ _ => none
  | .sneVxNn _ _ => none
  | .seVxVy _ _ => none
  | .ldVxNn _ _ => none
  | .addVxNn _ _ => none
  | .ldVxVy _ _ => none
  | .orVxVy _ _ => none
  | .andVxVy _ _ => none
  | .xorVxVy _ _ => none
  | .addVxVy _ _ => none
  | .subVxVy _ _ => none
  | .shrVxVy _ _ => none
  | .subnVxVy _ _ => none
  | .shlVxVy _ _ => none
  | .sneVxVy _ _ => none
  | .ldINnn _ => none
  | .jpV0Nnn _ => none
  | .rndVxNn _ _ => none
  | .drwVxVyN _ _ n => if n = 0 then none else s.rangeFault n
  | .skpVx _ => none
  | .sknpVx _ => none
  | .ldVxDt _ => none
  | .ldVxK _ => none
  | .ldDtVx _ => none
  | .ldStVx _ => none
  | .addIVx _ => none
  | .ldFVx _ => none
  | .ldBVx _ => s.rangeFault 3
  | .ldMemIVx x => s.rangeFault (x.val + 1)
  | .ldVxMemI x => s.rangeFault (x.val + 1)

end Sys2Proof
end

