-- ==== Sys2Proof/Certificates/Slice0/Obligations.lean ====
section
/-! DEFINITION. The statements for the provers, from the numbered rules of spec/. None rests on a value the model chose for
`State.reset`, but for the two that are about `State.reset`. -/

open Sys2Proof Sys2Proof.Machine

/-! ### Encoding (30_encoding.md) -/

/-- R102, R104: no operand bit of an encoding is dropped; decoding the word of a well-formed instruction gives it back. -/
def Obligations.DecodeAfterEncodeIsIdentity : Prop :=
  ∀ i : Instr, i.wf = true → decode (encode i) = .ok i

/-- R102, R104: every word has one meaning; a decoded word is the word of its instruction. -/
def Obligations.EncodeAfterDecodeIsIdentity : Prop :=
  ∀ (w : Word) (i : Instr), decode w = .ok i → encode i = w

/-- R105: a word decodes to a row's instruction exactly when `w AND mask = match`, and the rows are pairwise disjoint: the
rows a word matches are the one row of its instruction, or none when it is rejected. -/
def Obligations.DecodeFollowsOpcodeMap : Prop :=
  ∀ w : Word,
    ((opcodeMap.filter fun r => r.matchesWord w).map fun r => r.mnemonic) =
      match decode w with
      | .ok i => [i.mnemonic]
      | .error _ => []

/-- R116: the worked encodings of the spec. -/
def Obligations.DecodesWorkedEncodings : Prop :=
  decode 0x1200 = .ok (.jp 0x200) ∧ decode 0x00E0 = .ok .cls ∧ decode 0x8AB4 = .ok (.addVxVy 0xA 0xB) ∧
  decode 0xD125 = .ok (.drwVxVyN 1 2 5) ∧ decode 0xF30A = .ok (.ldVxK 3) ∧
  decode 0x5121 = .error (.unmatchedPattern 0x5121)

/-- R112 (with the literal reading of D13): the words rejected, by class, are exactly these, and the rejection names the
word. -/
def Obligations.RejectedWordsExactly : Prop :=
  ∀ w : Word,
    decode w = .error (.unmatchedPattern w) ↔
      (w.toNat / 4096 = 0x0 ∧ w ≠ 0x00E0 ∧ w ≠ 0x00EE) ∨
      (w.toNat / 4096 = 0x5 ∧ w.toNat % 16 ≠ 0) ∨
      (w.toNat / 4096 = 0x9 ∧ w.toNat % 16 ≠ 0) ∨
      (w.toNat / 4096 = 0x8 ∧ w.toNat % 16 ∈ [0x8, 0x9, 0xA, 0xB, 0xC, 0xD, 0xF]) ∨
      (w.toNat / 4096 = 0xE ∧ w.toNat % 256 ≠ 0x9E ∧ w.toNat % 256 ≠ 0xA1) ∨
      (w.toNat / 4096 = 0xF ∧ w.toNat % 256 ∉ [0x07, 0x0A, 0x15, 0x18, 0x1E, 0x29, 0x33, 0x55, 0x65])

/-- R74: the fetched word is big-endian, and its nibbles are those of the two cells. -/
def Obligations.FetchIsBigEndian : Prop :=
  ∀ s : State, s.fetchFits →
    let hi := s.mem.read s.pc.toNat
    let lo := s.mem.read (s.pc.toNat + 1)
    ∃ w, s.fetch = some w ∧ w.toNat = hi.toNat * 256 + lo.toNat ∧
      opClass w = hi.toNat / 16 ∧ (fieldX w).val = hi.toNat % 16 ∧
      (fieldY w).val = lo.toNat / 16 ∧ fieldN w = lo.toNat % 16

/-! ### The instruction cycle (R100, R101, R238) and which event a step takes (log 4) -/

/-- R100: when the word at `PC` decodes to `i`, the step is `exec i`, whether the scheduler issues the `Cycle` (no coming
event, STARTED) or the host's `Step` does, whatever `SCHED` is (R255). -/
def Obligations.StepRunsDecodedInstruction : Prop :=
  ∀ (s : State) (i : Instr), s.wait = false → s.flt = none → s.fetchFits → decode s.wordAtPc = .ok i →
    (s.pending = [] → s.sched = .started → step s = exec i s) ∧
    (∀ rest, s.pending = .step :: rest → step s = exec i { s with pending := rest }) ∧
    (∀ rest, s.pending = .cycle :: rest → s.sched = .started → step s = exec i { s with pending := rest })

/-- R101 (the fault half is the spec's D12): a `Cycle` does nothing at all while a key is awaited or a fault is recorded. -/
def Obligations.HeldCycleDoesNothing : Prop :=
  ∀ s : State, (s.wait = true ∨ s.flt.isSome = true) →
    cycle s = .next s ∧
    (s.pending = [] → step s = .next s) ∧
    (∀ rest, s.pending = .step :: rest → step s = .next { s with pending := rest })

/-- R100, R234, R238 (with the spec's D8, D10, D11): a `Cycle` whose fetch touches a cell outside memory faults with the
lowest such cell, before any decoding, and changes nothing else. -/
def Obligations.FetchOutsideMemoryFaults : Prop :=
  ∀ s : State, s.wait = false → s.flt = none → s.pc.toNat + 1 ≥ s.cfg.memSize →
    cycle s = .next { s with
      flt := some ⟨.outOfBoundsAccess, s.pc, max s.pc.toNat s.cfg.memSize⟩
      sched := .stopped }

/-- R112, R231 (with the spec's D10): a fetched word that matches no row faults with the word itself, and changes nothing
else. -/
def Obligations.IllegalWordFaults : Prop :=
  ∀ s : State, s.wait = false → s.flt = none → s.fetchFits →
    decode s.wordAtPc = .error (.unmatchedPattern s.wordAtPc) →
    cycle s = .next { s with
      flt := some ⟨.invalidInstruction, s.pc, s.wordAtPc.toNat⟩
      sched := .stopped }

/-- R246 (with D21, D25): while STOPPED the scheduler issues no `Cycle` and the cadence no tick. That an idle core's step
changes nothing, and that such an event passes with no effect, is the model's choice (logs 4 and 11). -/
def Obligations.StoppedCoreIdles : Prop :=
  ∀ s : State, s.sched = .stopped →
    (s.pending = [] → step s = .next s) ∧
    (∀ rest, s.pending = .cycle :: rest → step s = .next { s with pending := rest }) ∧
    (∀ rest, s.pending = .timerTick :: rest → step s = .next { s with pending := rest })

/-- R236, R239 (with D12): no step stops the machine; a recorded fault is a next state, whatever the state and the coming
event. That it is a next state, not a stop of the model, is the model's reading (log 12). -/
def Obligations.StepAlwaysAnswersNext : Prop :=
  ∀ s : State, ∃ t, step s = .next t

/-! ### Register-immediate (43_immediate.md) -/

/-- R160: the byte, and no other register. -/
def Obligations.LoadImmediateWritesByte : Prop :=
  ∀ (s : State) (x : Reg) (nn : Byte), ∃ t, exec (.ldVxNn x nn) s = .next t ∧ t.reg x = nn ∧
    (∀ r, r ≠ x → t.reg r = s.reg r) ∧ t = { s with v := t.v, pc := s.pc + 2 }

/-- R161: modulo 256, and no other register, `VF` included. -/
def Obligations.AddImmediateWrapsWithoutFlag : Prop :=
  ∀ (s : State) (x : Reg) (nn : Byte), ∃ t, exec (.addVxNn x nn) s = .next t ∧
    (t.reg x).toNat = ((s.reg x).toNat + nn.toNat) % 256 ∧
    (∀ r, r ≠ x → t.reg r = s.reg r) ∧ t = { s with v := t.v, pc := s.pc + 2 }

/-- R162, R163: exactly one draw, masked with `NN`: the byte the environment chose next, or a free value when it chose none
yet (log 6: how a draw is held is the model's choice; the statement holds for every value of either). -/
def Obligations.RandomIsMaskedDraw : Prop :=
  ∀ (s : State) (x : Reg) (nn : Byte), ∃ t, exec (.rndVxNn x nn) s = .next t ∧
    t.reg x &&& ~~~nn = 0 ∧ (∀ r, r ≠ x → t.reg r = s.reg r) ∧
    (∀ b rest, s.rndFeed = b :: rest →
      t.reg x = b &&& nn ∧ t = { s with v := t.v, pc := s.pc + 2, rndFeed := rest }) ∧
    (s.rndFeed = [] →
      t.reg x = Config.freeRandomByte s.draws &&& nn ∧
      t = { s with v := t.v, pc := s.pc + 2, draws := s.draws + 1 })

/-! ### Register-register (44_alu.md) -/

/-- R170: a copy, and no other register, `VF` included. -/
def Obligations.CopyRegister : Prop :=
  ∀ (s : State) (x y : Reg), ∃ t, exec (.ldVxVy x y) s = .next t ∧ t.reg x = s.reg y ∧
    (∀ r, r ≠ x → t.reg r = s.reg r) ∧ t = { s with v := t.v, pc := s.pc + 2 }

/-- R171 to R173: the bitwise result, and `VF <- 0` last under the quirk, `VF` untouched without it. -/
def Obligations.LogicResultAndQuirkFlag : Prop :=
  ∀ (s : State) (x y : Reg) (i : Instr) (result : Byte),
    (i = .orVxVy x y ∧ result = s.reg x ||| s.reg y) ∨ (i = .andVxVy x y ∧ result = s.reg x &&& s.reg y) ∨
      (i = .xorVxVy x y ∧ result = s.reg x ^^^ s.reg y) →
    ∃ t, exec i s = .next t ∧ t = { s with v := t.v, pc := s.pc + 2 } ∧
      (∀ r, r ≠ x → r ≠ Reg.vf → t.reg r = s.reg r) ∧
      (s.cfg.quirkLogicVfReset = true → t.reg Reg.vf = 0 ∧ (x ≠ Reg.vf → t.reg x = result)) ∧
      (s.cfg.quirkLogicVfReset = false → t.reg x = result ∧ (x ≠ Reg.vf → t.reg Reg.vf = s.reg Reg.vf))

/-- R174: the sum modulo 256, and the carry, which wins when `X = 0xF`. -/
def Obligations.AddRegistersSumAndCarry : Prop :=
  ∀ (s : State) (x y : Reg), ∃ t, exec (.addVxVy x y) s = .next t ∧
    t = { s with v := t.v, pc := s.pc + 2 } ∧ (∀ r, r ≠ x → r ≠ Reg.vf → t.reg r = s.reg r) ∧
    (x ≠ Reg.vf → (t.reg x).toNat = ((s.reg x).toNat + (s.reg y).toNat) % 256) ∧
    t.reg Reg.vf = if (s.reg x).toNat + (s.reg y).toNat > 255 then 1 else 0

/-- R175, R177: the difference modulo 256 (the non-negative remainder of the exact integer), and not-borrow. -/
def Obligations.SubtractDifferenceAndBorrow : Prop :=
  ∀ (s : State) (x y : Reg),
    (∃ t, exec (.subVxVy x y) s = .next t ∧
      t = { s with v := t.v, pc := s.pc + 2 } ∧ (∀ r, r ≠ x → r ≠ Reg.vf → t.reg r = s.reg r) ∧
      (x ≠ Reg.vf → ((t.reg x).toNat : Int) = ((s.reg x).toNat - (s.reg y).toNat : Int) % 256) ∧
      t.reg Reg.vf = if (s.reg x).toNat < (s.reg y).toNat then 0 else 1) ∧
    (∃ t, exec (.subnVxVy x y) s = .next t ∧
      t = { s with v := t.v, pc := s.pc + 2 } ∧ (∀ r, r ≠ x → r ≠ Reg.vf → t.reg r = s.reg r) ∧
      (x ≠ Reg.vf → ((t.reg x).toNat : Int) = ((s.reg y).toNat - (s.reg x).toNat : Int) % 256) ∧
      t.reg Reg.vf = if (s.reg y).toNat < (s.reg x).toNat then 0 else 1)

/-- R176, R178: both shifts by one, the source `V[Y]` or `V[X]` by the quirk, `VF` the bit shifted out, last. -/
def Obligations.ShiftsByOneAndBitOut : Prop :=
  ∀ (s : State) (x y : Reg) (b : Byte), b = (if s.cfg.quirkShiftUsesVy = true then s.reg y else s.reg x) →
    (∃ t, exec (.shrVxVy x y) s = .next t ∧
      t = { s with v := t.v, pc := s.pc + 2 } ∧ (∀ r, r ≠ x → r ≠ Reg.vf → t.reg r = s.reg r) ∧
      (x ≠ Reg.vf → (t.reg x).toNat = b.toNat / 2) ∧ (t.reg Reg.vf).toNat = b.toNat % 2) ∧
    (∃ t, exec (.shlVxVy x y) s = .next t ∧
      t = { s with v := t.v, pc := s.pc + 2 } ∧ (∀ r, r ≠ x → r ≠ Reg.vf → t.reg r = s.reg r) ∧
      (x ≠ Reg.vf → (t.reg x).toNat = b.toNat * 2 % 256) ∧ (t.reg Reg.vf).toNat = b.toNat / 128)

/-! ### Control transfer and skips (41_flow.md, 42_skip.md) -/

/-- R141: the target, and nothing else. -/
def Obligations.JumpGoesToTarget : Prop :=
  ∀ (s : State) (nnn : Word), exec (.jp nnn) s = .next { s with pc := nnn }

/-- R143 (with D32): always `V0`, the sum not masked to 12 bits. -/
def Obligations.JumpV0AddsWithoutMask : Prop :=
  ∀ (s : State) (nnn : Word), nnn.toNat < 4096 → ∃ t, exec (.jpV0Nnn nnn) s = .next t ∧
    t.pc.toNat = nnn.toNat + (s.reg Reg.v0).toNat ∧ t = { s with pc := t.pc }

/-- R142, R42: with room the address after the call is pushed and `PC` is the target; a full stack faults and changes
nothing else (the record is the spec's D10, D11). -/
def Obligations.CallPushesReturnAddress : Prop :=
  ∀ (s : State) (nnn : Word),
    (s.sp ≠ s.cfg.stackDepth →
      exec (.call nnn) s = .next { s with stk := s.stk ++ [s.pc + 2], pc := nnn }) ∧
    (s.sp = s.cfg.stackDepth →
      exec (.call nnn) s = .next { s with flt := some ⟨.stackOverflow, s.pc, 0⟩, sched := .stopped })

/-- R140, R43: the newest entry becomes `PC` and leaves the stack; an empty stack faults and changes nothing else (the
record is the spec's D10, D11). -/
def Obligations.ReturnPopsNewestEntry : Prop :=
  (∀ (s : State) (older : List Word) (newest : Word), s.stk = older ++ [newest] →
    exec .ret s = .next { s with stk := older, pc := newest }) ∧
  (∀ s : State, s.sp = 0 →
    exec .ret s = .next { s with flt := some ⟨.stackUnderflow, s.pc, 0⟩, sched := .stopped })

/-- R142: a call, whatever the subroutine does to everything but the stack, and a return lands exactly after the call with
the stack as before. -/
def Obligations.CallThenReturnLandsAfterCall : Prop :=
  ∀ (s : State) (nnn : Word), s.sp ≠ s.cfg.stackDepth →
    ∃ t, exec (.call nnn) s = .next t ∧
      ∀ t' : State, t'.stk = t.stk → ∃ u, exec .ret t' = .next u ∧ u.pc = s.pc + 2 ∧ u.stk = s.stk

/-- R150, R151. -/
def Obligations.ImmediateSkips : Prop :=
  ∀ (s : State) (x : Reg) (nn : Byte),
    exec (.seVxNn x nn) s = .next { s with pc := if s.reg x = nn then s.pc + 4 else s.pc + 2 } ∧
    exec (.sneVxNn x nn) s = .next { s with pc := if s.reg x ≠ nn then s.pc + 4 else s.pc + 2 }

/-- R152, R153. -/
def Obligations.RegisterSkips : Prop :=
  ∀ (s : State) (x y : Reg),
    exec (.seVxVy x y) s = .next { s with pc := if s.reg x = s.reg y then s.pc + 4 else s.pc + 2 } ∧
    exec (.sneVxVy x y) s = .next { s with pc := if s.reg x ≠ s.reg y then s.pc + 4 else s.pc + 2 }

/-! ### Index register (45_index.md) -/

/-- R190, R191: the load, and the one addition masked to 12 bits. -/
def Obligations.IndexLoadAndMaskedAdd : Prop :=
  ∀ s : State,
    (∀ nnn : Word, exec (.ldINnn nnn) s = .next { s with i := nnn, pc := s.pc + 2 }) ∧
    (∀ x : Reg, ∃ t, exec (.addIVx x) s = .next t ∧
      t.i.toNat = (s.i.toNat + (s.reg x).toNat) % 4096 ∧ t = { s with i := t.i, pc := s.pc + 2 })

/-- R192 (with D2, D31): the whole of `V[X]`, modulo 65536 only. -/
def Obligations.GlyphAddressFromFontBase : Prop :=
  ∀ (s : State) (x : Reg), ∃ t, exec (.ldFVx x) s = .next t ∧
    t.i.toNat = (s.cfg.fontBase.toNat + 5 * (s.reg x).toNat) % 65536 ∧ t = { s with i := t.i, pc := s.pc + 2 }

/-! ### Keypad (46_keypad.md) -/

/-- R201, R202 (with D17): the low four bits of `V[X]` select the key. -/
def Obligations.KeySkips : Prop :=
  ∀ (s : State) (x : Reg) (down : Bool), down = s.keys.getLsbD ((s.reg x).toNat % 16) →
    exec (.skpVx x) s = .next { s with pc := if down = true then s.pc + 4 else s.pc + 2 } ∧
    exec (.sknpVx x) s = .next { s with pc := if down = true then s.pc + 2 else s.pc + 4 }

/-- R203: the wait is entered, the destination recorded, `PC` moves on, and no register is written. -/
def Obligations.WaitForKeySuspends : Prop :=
  ∀ (s : State) (x : Reg), exec (.ldVxK x) s = .next { s with wait := true, wreg := x, pc := s.pc + 2 }

/-- R204 (with D26): a release completes a pending wait, whatever `SCHED` and `FLT` are; with none pending it has no
effect. -/
def Obligations.KeyReleaseCompletesWait : Prop :=
  ∀ (s : State) (code : Key) (rest : List Event), s.pending = .keyRelease code :: rest →
    (s.wait = true → ∃ t, step s = .next t ∧ (t.reg s.wreg).toNat = code.toNat ∧
      (∀ r, r ≠ s.wreg → t.reg r = s.reg r) ∧
      t = { s with v := t.v, wait := false, pending := rest }) ∧
    (s.wait = false → step s = .next { s with pending := rest })

/-- R203 to R205: after `FX0A` any number of cycles does nothing, then the first release writes the destination and
execution is where it stopped, after the instruction. -/
def Obligations.WaitHoldsUntilRelease : Prop :=
  ∀ (s : State) (x : Reg) (code : Key), ∃ t, exec (.ldVxK x) s = .next t ∧
    (∀ n, Sys2Proof.core.run n { t with pending := [] } = .next { t with pending := [] }) ∧
    ∃ u, step { t with pending := [.keyRelease code] } = .next u ∧
      u.wait = false ∧ (u.reg x).toNat = code.toNat ∧ u.pc = s.pc + 2

/-! ### Timers (47_timers.md) -/

/-- R210, R211, R212: the three register writes, and nothing else but `PC`. -/
def Obligations.TimerInstructions : Prop :=
  ∀ (s : State) (x : Reg),
    (∃ t, exec (.ldVxDt x) s = .next t ∧ t.reg x = s.dt ∧
      (∀ r, r ≠ x → t.reg r = s.reg r) ∧ t = { s with v := t.v, pc := s.pc + 2 }) ∧
    exec (.ldDtVx x) s = .next { s with dt := s.reg x, pc := s.pc + 2 } ∧
    exec (.ldStVx x) s = .next { s with st := s.reg x, pc := s.pc + 2 }

/-- R213 (with D25): a tick while STARTED counts both timers down by at most one, waiting or not, and writes nothing
else. -/
def Obligations.TickCountsBothDown : Prop :=
  ∀ (s : State) (rest : List Event), s.pending = .timerTick :: rest → s.sched = .started →
    ∃ t, step s = .next t ∧ t.dt.toNat = s.dt.toNat - 1 ∧ t.st.toNat = s.st.toNat - 1 ∧
      t = { s with dt := t.dt, st := t.st, pending := rest }

/-- R44, R213: after `n` ticks a timer holds its start value less `n`, and 0 from then on, never below. -/
def Obligations.TicksNeverGoBelowZero : Prop :=
  ∀ (n : Nat) (s : State) (rest : List Event), s.sched = .started →
    s.pending = List.replicate n .timerTick ++ rest →
    ∃ t, Sys2Proof.core.run n s = .next t ∧ t.dt.toNat = s.dt.toNat - n ∧ t.st.toNat = s.st.toNat - n ∧
      t = { s with dt := t.dt, st := t.st, pending := rest }

/-- R82: a tick touches `DT` and `ST` only, and every instruction but `FX07`, `FX15`, `FX18` runs the same before and after
one. -/
def Obligations.TickCommutesWithInstructions : Prop :=
  (∀ s : State, s.tickTimers = { s with dt := s.tickTimers.dt, st := s.tickTimers.st }) ∧
  (∀ (i : Instr) (s t : State), i.usesTimer = false → exec i s = .next t →
    exec i s.tickTimers = .next t.tickTimers)

/-! ### Memory transfer (48_memory_transfer.md) -/

/-- R221: the three digits, the rest of the state, and the fault that writes nothing (the range check is the spec's D8, the
record its D10, D11). -/
def Obligations.BcdWritesThreeDigits : Prop :=
  ∀ (s : State) (x : Reg), s.mem.wf →
    (s.i.toNat + 2 < s.cfg.memSize → ∃ t, exec (.ldBVx x) s = .next t ∧
      (t.mem.read s.i.toNat).toNat = (s.reg x).toNat / 100 ∧
      (t.mem.read (s.i.toNat + 1)).toNat = (s.reg x).toNat / 10 % 10 ∧
      (t.mem.read (s.i.toNat + 2)).toNat = (s.reg x).toNat % 10 ∧
      (∀ a, a < s.i.toNat ∨ s.i.toNat + 3 ≤ a → t.mem.read a = s.mem.read a) ∧
      t = { s with mem := t.mem, pc := s.pc + 2 }) ∧
    (s.i.toNat + 2 ≥ s.cfg.memSize → exec (.ldBVx x) s = .next { s with
      flt := some ⟨.outOfBoundsAccess, s.pc, max s.i.toNat s.cfg.memSize⟩
      sched := .stopped })

/-- R222 (with D2, D8, D10, D11): `V0..VX` in ascending cells, `I` advanced by `X + 1`, and the fault that stores nothing. -/
def Obligations.StoreRegistersAdvancesIndex : Prop :=
  ∀ (s : State) (x : Reg), s.mem.wf →
    (s.i.toNat + x.val < s.cfg.memSize → ∃ t, exec (.ldMemIVx x) s = .next t ∧
      (∀ r : Reg, r ≤ x → t.mem.read (s.i.toNat + r.val) = s.reg r) ∧
      (∀ a, a < s.i.toNat ∨ s.i.toNat + x.val + 1 ≤ a → t.mem.read a = s.mem.read a) ∧
      t.i.toNat = (s.i.toNat + x.val + 1) % 65536 ∧
      t = { s with mem := t.mem, i := t.i, pc := s.pc + 2 }) ∧
    (s.i.toNat + x.val ≥ s.cfg.memSize → exec (.ldMemIVx x) s = .next { s with
      flt := some ⟨.outOfBoundsAccess, s.pc, max s.i.toNat s.cfg.memSize⟩
      sched := .stopped })

/-- R223 (with D8, D10, D11, D19): `V0..VX` from ascending cells, `I` and the other registers unchanged, and the fault that
loads nothing. -/
def Obligations.LoadRegistersKeepsIndex : Prop :=
  ∀ (s : State) (x : Reg),
    (s.i.toNat + x.val < s.cfg.memSize → ∃ t, exec (.ldVxMemI x) s = .next t ∧
      (∀ r : Reg, r ≤ x → t.reg r = s.mem.read (s.i.toNat + r.val)) ∧
      (∀ r : Reg, x < r → t.reg r = s.reg r) ∧
      t = { s with v := t.v, pc := s.pc + 2 }) ∧
    (s.i.toNat + x.val ≥ s.cfg.memSize → exec (.ldVxMemI x) s = .next { s with
      flt := some ⟨.outOfBoundsAccess, s.pc, max s.i.toNat s.cfg.memSize⟩
      sched := .stopped })

/-- R222, R223: a save and a restore with the same `X` and the same initial `I` give `V0..VX` back, whatever the registers
hold in between. -/
def Obligations.SaveThenRestoreRegisters : Prop :=
  ∀ (s : State) (x : Reg), s.mem.wf → s.i.toNat + x.val < s.cfg.memSize →
    ∃ t, exec (.ldMemIVx x) s = .next t ∧
      ∀ t' : State, t'.mem = t.mem → t'.i = s.i → t'.cfg = s.cfg →
        ∃ u, exec (.ldVxMemI x) t' = .next u ∧ ∀ r : Reg, r ≤ x → u.reg r = s.reg r

/-- R83: the word a store puts at the next instruction's address is the word the next `Cycle` fetches. -/
def Obligations.StoreIsSeenByNextFetch : Prop :=
  ∀ (s : State) (x : Reg), s.mem.wf → 1 ≤ x.val → s.i = s.pc + 2 → s.i.toNat + x.val < s.cfg.memSize →
    ∃ t, exec (.ldMemIVx x) s = .next t ∧ t.pc = s.i ∧
      t.fetch = some (wordOfBytes (s.reg 0) (s.reg 1))

/-! ### Display (40_display.md) -/

/-- R133 over the companion display of R132, which the model chose to take (log 8): every pixel is unset, and no CORE state
but `PC` changes, `VF` included. -/
def Obligations.ClearUnsetsEveryPixel : Prop :=
  ∀ s : State, ∃ t, exec .cls s = .next t ∧ (∀ p, t.fb.lit p = false) ∧
    t = { s with fb := t.fb, pc := s.pc + 2 }

/-- R134 (with D15, D16) over the companion display of R132 (log 8, the model's choice): every covered pixel flips and
no other; `VF` says whether a covered pixel was set before (under the quirk; else it is untouched); nothing else
changes. -/
def Obligations.DrawFlipsCoveredPixels : Prop :=
  ∀ (s : State) (x y : Reg) (n : Nat), s.fb.wf s.cfg.displayW s.cfg.displayH →
    (n = 0 ∨ s.i.toNat + n ≤ s.cfg.memSize) →
    ∃ t, exec (.drwVxVyN x y n) s = .next t ∧
      (∀ p, s.spriteCovers x y n p → t.fb.lit p = !s.fb.lit p) ∧
      (∀ p, ¬ s.spriteCovers x y n p → t.fb.lit p = s.fb.lit p) ∧
      (s.cfg.quirkDrawVf = true → (∃ p, s.spriteCovers x y n p ∧ s.fb.lit p = true) → t.reg Reg.vf = 1) ∧
      (s.cfg.quirkDrawVf = true → (¬ ∃ p, s.spriteCovers x y n p ∧ s.fb.lit p = true) → t.reg Reg.vf = 0) ∧
      (s.cfg.quirkDrawVf = false → t.reg Reg.vf = s.reg Reg.vf) ∧
      (∀ r, r ≠ Reg.vf → t.reg r = s.reg r) ∧
      t = { s with v := t.v, fb := t.fb, pc := s.pc + 2 }

/-- R134 (g) over the companion display of R132 (log 8, the model's choice): the same sprite drawn twice at the same
place restores the frame buffer, and under the quirk the second draw reports a collision exactly when some covered
pixel was unset before the first (log 17: on a display whose covered pixels were all set it reports none, by R134's
own pseudocode). -/
def Obligations.DrawTwiceRestoresFrame : Prop :=
  ∀ (s : State) (x y : Reg) (n : Nat), s.fb.wf s.cfg.displayW s.cfg.displayH →
    (n = 0 ∨ s.i.toNat + n ≤ s.cfg.memSize) →
    ∃ t, exec (.drwVxVyN x y n) s = .next t ∧
      ∃ u, exec (.drwVxVyN x y n) { t with v := s.v } = .next u ∧
        (∀ p, u.fb.lit p = s.fb.lit p) ∧
        (s.cfg.quirkDrawVf = true →
          (u.reg Reg.vf = 1 ↔ ∃ p, s.spriteCovers x y n p ∧ s.fb.lit p = false))

/-! ### What instructions leave unchanged -/

/-- R33, R34: no instruction writes a `V` register but its own destinations and its flag. -/
def Obligations.RegistersFrame : Prop :=
  ∀ (i : Instr) (s t : State), exec i s = .next t →
    ∀ r : Reg, i.writesReg s.cfg r = false → t.reg r = s.reg r

/-- R71: `FX33` and `FX55` write the cells from `I` on (three, and `X + 1`) and no instruction writes any other cell. -/
def Obligations.MemoryFrame : Prop :=
  ∀ (i : Instr) (s t : State), s.mem.wf → exec i s = .next t →
    ∀ a, a < s.base ∨ s.base + i.storedCells ≤ a → t.mem.read a = s.mem.read a

/-- R36, R41, R44, R46, R47, R50: `I`, the stack, the timers, the key wait, the frame buffer and the random source change by
the instructions the spec names alone; the configuration, the keys and the coming events by none. -/
def Obligations.OtherStateFrame : Prop :=
  ∀ (i : Instr) (s t : State), exec i s = .next t →
    (i.writesI = false → t.i = s.i) ∧
    (i.writesStack = false → t.stk = s.stk) ∧
    (i.draws = false → t.fb = s.fb) ∧
    ((∀ x, i ≠ .ldDtVx x) → t.dt = s.dt) ∧
    ((∀ x, i ≠ .ldStVx x) → t.st = s.st) ∧
    ((∀ x, i ≠ .ldVxK x) → t.wait = s.wait ∧ t.wreg = s.wreg) ∧
    ((∀ x nn, i ≠ .rndVxNn x nn) → t.rndFeed = s.rndFeed ∧ t.draws = s.draws) ∧
    t.cfg = s.cfg ∧ t.keys = s.keys ∧ t.pending = s.pending

/-! ### Faults of instructions (60_exceptions.md) -/

/-- R235 to R237 (with D8, D10, D11, D16): where the spec names a fault the instruction takes it: the record, STOPPED, and
nothing else, `PC` included. -/
def Obligations.OwnFaultIsTakenPrecisely : Prop :=
  ∀ (i : Instr) (s : State) (c : FaultCause) (k : Nat), i.ownFault s = some (c, k) →
    exec i s = .next { s with flt := some ⟨c, s.pc, k⟩, sched := .stopped }

/-- R235: everywhere else every instruction completes, and neither `FLT` nor `SCHED` changes (R48). -/
def Obligations.EveryInstructionCompletesWithoutOwnFault : Prop :=
  ∀ (i : Instr) (s : State), i.ownFault s = none →
    ∃ t, exec i s = .next t ∧ t.flt = s.flt ∧ t.sched = s.sched

/-- R239 (with D12): a recorded fault outlives every event but `Reset`; the program goes no further. -/
def Obligations.RecordedFaultIsSticky : Prop :=
  ∀ (s t : State) (r : FaultRecord), s.flt = some r → s.pending.head? ≠ some .reset → step s = .next t →
    t.flt = some r ∧ t.pc = s.pc ∧ t.i = s.i ∧ t.stk = s.stk ∧ t.fb = s.fb ∧
    (s.sched = .stopped → t.sched = .stopped)

/-! ### Whole-machine rules -/

/-- R7: no step, whatever the event, changes the configuration. -/
def Obligations.ConfigurationNeverChanges : Prop :=
  ∀ s t : State, step s = .next t → t.cfg = s.cfg

/-- R7, R45, R41, R132, R246, R258: every step keeps the invariant. -/
def Obligations.StepKeepsInvariant : Prop :=
  ∀ s t : State, s.Inv → step s = .next t → t.Inv

/-- The state after reset (R51) meets the invariant, R7's legal ranges among it. About `State.reset` alone: it rests on the
configuration the model chose there (logs 2 and 3) and on the free picture of log 8. -/
def Obligations.ResetMeetsInvariant : Prop := State.reset.Inv

/-- R51: the values of the CORE's state after reset (R51's values of `WAIT`, `WREG`, `SCHED`, `FLT` are the spec's D22; the
configuration is log 2's). -/
def Obligations.ResetValues : Prop :=
  (∀ r, State.reset.reg r = 0) ∧ State.reset.i = 0 ∧ State.reset.pc = State.reset.cfg.programStart ∧
  State.reset.sp = 0 ∧ State.reset.dt = 0 ∧ State.reset.st = 0 ∧ (∀ a, State.reset.mem.read a = 0) ∧
  State.reset.wait = false ∧ State.reset.wreg = 0 ∧ State.reset.sched = .stopped ∧ State.reset.flt = none ∧
  State.reset.cfg.programStart = 0x200 ∧ State.reset.cfg.memSize = 4096

/-! ### Host operations (60_exceptions.md section 5, 70_reset_and_hazards.md) -/

/-- R250, R251 (with D27): a load that fits writes its bytes and nothing else; one that does not is refused whole. -/
def Obligations.LoadWritesWholeOrNothing : Prop :=
  ∀ (s : State) (a : Nat) (bs : List Byte) (rest : List Event), s.mem.wf →
    (s.pending = .load a bs :: rest ∨ s.pending = .loadFont a bs :: rest) →
    (a + bs.length ≤ s.cfg.memSize → ∃ t, step s = .next t ∧
      (∀ k (h : k < bs.length), t.mem.read (a + k) = bs[k]) ∧
      (∀ c, c < a ∨ a + bs.length ≤ c → t.mem.read c = s.mem.read c) ∧
      t = { s with mem := t.mem, pending := rest }) ∧
    (a + bs.length > s.cfg.memSize → step s = .next { s with pending := rest })

/-- R254: `Stop` stops the scheduler and leaves all state untouched. That it keeps every coming event is the model's choice
(log 4): a tick R254 clears is one that comes while STOPPED, and it has no effect (StoppedCoreIdles). -/
def Obligations.StopLeavesStateUntouched : Prop :=
  ∀ (s : State) (rest : List Event), s.pending = .stop :: rest →
    step s = .next { s with sched := .stopped, pending := rest }

/-- R253 (with D12): `Start` starts an unfaulted core and has no effect on a faulted one. -/
def Obligations.StartOnlyWithoutFault : Prop :=
  ∀ (s : State) (rest : List Event), s.pending = .start :: rest →
    (s.flt = none → step s = .next { s with sched := .started, pending := rest }) ∧
    (s.flt.isSome = true → step s = .next { s with pending := rest })

/-- R270 (with D22): `Reset` returns the CORE to its state at construction; the configuration and what lies outside the
CORE stay. -/
def Obligations.ResetReturnsToConstruction : Prop :=
  ∀ (s : State) (rest : List Event), s.pending = .reset :: rest →
    step s = .next { State.atConstruction s.cfg with
      fb := s.fb, keys := s.keys, rndFeed := s.rndFeed, draws := s.draws, pending := rest }

/-- R256 (log 10: the batch is the scheduler's): `RunChunk n` is `n` `Cycle` events in order, and after a fault the rest of
the batch changes nothing. -/
def Obligations.RunChunkIsCyclesInOrder : Prop :=
  (∀ (s : State) (n : Nat) (rest : List Event), s.pending = .runChunk n :: rest →
    step s = .next { s with pending := List.replicate n .cycle ++ rest }) ∧
  (∀ (n : Nat) (s : State) (rest : List Event), s.flt.isSome = true →
    s.pending = List.replicate n .cycle ++ rest → Sys2Proof.core.run n s = .next { s with pending := rest })
end

