-- ==== Sys2Proof/Laws/Decode.lean ====
section
/-! SUPPORT. The numbers behind fields and packed words (30_encoding.md R102, R104), and that the decoder answers well-formed
instructions only. -/

namespace Sys2Proof

@[simp] theorem fieldX_val (w : Word) : (fieldX w).val = w.toNat / 256 % 16 := rfl

@[simp] theorem fieldY_val (w : Word) : (fieldY w).val = w.toNat / 16 % 16 := rfl

@[simp] theorem fieldNN_toNat (w : Word) : (fieldNN w).toNat = w.toNat % 256 := by simp [fieldNN]

@[simp] theorem fieldNNN_toNat (w : Word) : (fieldNNN w).toNat = w.toNat % 4096 := by
  simp only [fieldNNN, BitVec.toNat_ofNat]; omega

theorem packNNN_toNat {c : Nat} {nnn : Word} (hc : c < 16) (h : nnn.toNat < 4096) :
    (packNNN c nnn).toNat = c * 4096 + nnn.toNat := by
  simp only [packNNN, BitVec.toNat_ofNat]; omega

theorem packXNN_toNat {c : Nat} (hc : c < 16) (x : Reg) (nn : Byte) :
    (packXNN c x nn).toNat = c * 4096 + x.val * 256 + nn.toNat := by
  have := x.isLt
  have := nn.isLt
  simp only [packXNN, BitVec.toNat_ofNat]; omega

theorem pack_toNat {c x y n : Nat} (hc : c < 16) (hx : x < 16) (hy : y < 16) (hn : n < 16) :
    (pack c x y n).toNat = c * 4096 + x * 256 + y * 16 + n := by
  simp only [pack, BitVec.toNat_ofNat]; omega

theorem packXY_toNat {c : Nat} (hc : c < 16) (x y : Reg) {sub : Nat} (h : sub < 16) :
    (packXY c x y sub).toNat = c * 4096 + x.val * 256 + y.val * 16 + sub :=
  pack_toNat hc x.isLt y.isLt h

theorem packX_toNat {c : Nat} (hc : c < 16) (x : Reg) {sub : Nat} (h : sub < 256) :
    (packX c x sub).toNat = c * 4096 + x.val * 256 + sub := by
  have := x.isLt
  simp only [packX, BitVec.toNat_ofNat]; omega

/-- A word read back from the two cells it was stored in (R74). -/
@[simp] theorem wordOfBytes_bytes (w : Word) : wordOfBytes (highByte w) (lowByte w) = w := by
  apply BitVec.eq_of_toNat_eq
  have := w.isLt
  simp only [wordOfBytes, highByte, lowByte, BitVec.toNat_ofNat]
  omega

@[simp] theorem wordOfBytes_toNat (hi lo : Byte) : (wordOfBytes hi lo).toNat = hi.toNat * 256 + lo.toNat := by
  have := hi.isLt
  have := lo.isLt
  simp only [wordOfBytes, BitVec.toNat_ofNat]
  omega

/-- The decoder reads a stored word as that word. -/
theorem decodeBytes_bytesOfWord (w : Word) (rest : List Byte) :
    decodeBytes (bytesOfWord w ++ rest) = (decode w).map fun i => (i, rest) := by
  simp only [bytesOfWord, List.cons_append, List.nil_append, decodeBytes, wordOfBytes_bytes]
  cases decode w <;> rfl

/-! ### The masks of the opcode map (R105) -/

/-- The class bits of a word as a number. -/
theorem and_F000_toNat (w : Word) : (w &&& 0xF000).toNat = w.toNat / 4096 * 4096 := by
  have h : w &&& (0xF000 : Word) = (w >>> 12) <<< 12 := by
    apply BitVec.eq_of_getLsbD_eq
    intro i hi
    interval_cases i <;> simp
  have := w.isLt
  rw [h]
  simp only [BitVec.toNat_shiftLeft, BitVec.toNat_ushiftRight, Nat.shiftRight_eq_div_pow, Nat.shiftLeft_eq]
  omega

/-- The low `k` bits of a word as a number. -/
theorem and_lowMask_toNat (w : Word) (k : Nat) (hk : k ≤ 16) :
    (w &&& BitVec.ofNat 16 (2 ^ k-1)).toNat = w.toNat % 2 ^ k := by
  have hle := Nat.pow_le_pow_right (n := 2) (by omega) hk
  have hpos := Nat.pow_pos (n := k) (a := 2) (by omega)
  have : 2 ^ k - 1 < 2 ^ 16 := by omega
  rw [BitVec.toNat_and, BitVec.toNat_ofNat, Nat.mod_eq_of_lt this, Nat.and_two_pow_sub_one_eq_mod]

/-- The bits mask `0xF00F` keeps: the class and `N`. -/
theorem and_F00F_toNat (w : Word) : (w &&& 0xF00F).toNat = w.toNat / 4096 * 4096 + w.toNat % 16 := by
  have h : w &&& 0xF00F = (w &&& 0xF000) + (w &&& 0x000F) := by
    rw [BitVec.add_eq_or_of_and_eq_zero]
    · rw [← BitVec.and_or_distrib_left]; rfl
    · rw [BitVec.and_comm w, BitVec.and_assoc, ← BitVec.and_assoc w, BitVec.and_self, BitVec.and_comm w, ← BitVec.and_assoc]
      simp
  have := w.isLt
  rw [h, BitVec.toNat_add, and_F000_toNat, show (0x000F : Word) = BitVec.ofNat 16 (2 ^ 4 - 1) from rfl, and_lowMask_toNat w 4 (by decide)]
  omega

/-- The bits mask `0xF0FF` keeps: the class and `NN`. -/
theorem and_F0FF_toNat (w : Word) : (w &&& 0xF0FF).toNat = w.toNat / 4096 * 4096 + w.toNat % 256 := by
  have h : w &&& 0xF0FF = (w &&& 0xF000) + (w &&& 0x00FF) := by
    rw [BitVec.add_eq_or_of_and_eq_zero]
    · rw [← BitVec.and_or_distrib_left]; rfl
    · rw [BitVec.and_comm w, BitVec.and_assoc, ← BitVec.and_assoc w, BitVec.and_self, BitVec.and_comm w, ← BitVec.and_assoc]
      simp
  have := w.isLt
  rw [h, BitVec.toNat_add, and_F000_toNat, show (0x00FF : Word) = BitVec.ofNat 16 (2 ^ 8 - 1) from rfl, and_lowMask_toNat w 8 (by decide)]
  omega

/-! ### The decoder's answers -/

theorem decodeClass0_wf {w : Word} {i : Instr} (h : decodeClass0 w = .ok i) : i.wf = true := by
  unfold decodeClass0 at h
  split at h
  · cases h; rfl
  · split at h <;> cases h
    rfl

theorem decodeClass8_wf {w : Word} {i : Instr} (h : decodeClass8 w = .ok i) : i.wf = true := by
  unfold decodeClass8 at h
  split at h <;> cases h <;> rfl

theorem decodeClassE_wf {w : Word} {i : Instr} (h : decodeClassE w = .ok i) : i.wf = true := by
  unfold decodeClassE at h
  split at h
  · cases h; rfl
  · split at h <;> cases h
    rfl

theorem decodeClassF_wf {w : Word} {i : Instr} (h : decodeClassF w = .ok i) : i.wf = true := by
  unfold decodeClassF at h
  split at h <;> cases h <;> rfl

/-- The decoder answers well-formed instructions only (R102). -/
theorem decode_wf {w : Word} {i : Instr} (h : decode w = .ok i) : i.wf = true := by
  have hnnn : addressFits (fieldNNN w) = true := by
    simp only [addressFits, fieldNNN_toNat, decide_eq_true_eq]; omega
  have hn : rowCountFits (fieldN w) = true := by
    exact decide_eq_true (Nat.mod_lt _ (by decide))
  unfold decode at h
  split at h
  case h_1 => exact decodeClass0_wf h
  case h_9 => exact decodeClass8_wf h
  case h_15 => exact decodeClassE_wf h
  case h_16 => exact decodeClassF_wf h
  case h_6 => split at h <;> cases h; rfl
  case h_10 => split at h <;> cases h; rfl
  all_goals cases h
  all_goals first | rfl | exact hnnn | exact hn

end Sys2Proof
end

