-- ==== Sys2Proof/Laws/Frame.lean ====
section
/-! SUPPORT. The laws of the frame buffer: a toggle keeps the canonical form and changes one pixel (40_display.md R132), a
run of toggles of distinct pixels, and the toggles of a sprite (R131, R134). -/

namespace Sys2Proof.Machine

namespace Pixel

theorem before_iff (p q : Pixel) : p.before q = true ↔ p.y < q.y ∨ (p.y = q.y ∧ p.x < q.x) := by
  simp [before]

theorem before_irrefl (p : Pixel) : ¬ p.before p = true := by
  rw [before_iff]; omega

theorem before_trans {p q r : Pixel} (h : p.before q = true) (h' : q.before r = true) : p.before r = true := by
  rw [before_iff] at *; omega

/-- Two different pixels stand in one of the two orders. -/
theorem before_of_not {p q : Pixel} (hne : p ≠ q) (h : ¬ p.before q = true) : q.before p = true := by
  rw [before_iff] at *
  have : ¬ (p.x = q.x ∧ p.y = q.y) := fun e => hne (by cases p; cases q; simp_all)
  omega

end Pixel

namespace Frame

@[simp] theorem lit_nil (p : Pixel) : Frame.lit [] p = false := by simp [lit]

theorem lit_iff (f : Frame) (p : Pixel) : f.lit p = true ↔ p ∈ f := by simp [lit]

/-- A pixel before every listed one is not listed. -/
theorem not_mem_of_before {f : Frame} {p : Pixel} (h : ∀ q ∈ f, p.before q = true) : p ∉ f :=
  fun hp => Pixel.before_irrefl p (h p hp)

/-- Membership after a toggle (R132). -/
theorem mem_toggle {f : Frame} (h : List.Pairwise (fun p q : Pixel => p.before q = true) f) (p q : Pixel) :
    q ∈ f.toggle p ↔ if q = p then p ∉ f else q ∈ f := by
  induction f with
  | nil => simp [toggle]
  | cons r f ih =>
    obtain ⟨hr, hf⟩ := List.pairwise_cons.1 h
    simp only [toggle]
    split
    · rename_i hpr
      subst hpr
      by_cases hq : q = p
      · subst hq
        simp [not_mem_of_before hr]
      · simp [hq]
    · rename_i hpr
      split
      · rename_i hb
        have hnot : p ∉ r :: f := not_mem_of_before fun z hz => by
          rcases List.mem_cons.1 hz with rfl | hz
          · exact hb
          · exact Pixel.before_trans hb (hr z hz)
        by_cases hq : q = p
        · simp [hq, hnot]
        · simp [hq]
      · rw [List.mem_cons, ih hf]
        by_cases hq : q = p
        · simp [hq, hpr]
        · simp [hq]

/-- A toggle keeps the row-major order. -/
theorem toggle_sorted {f : Frame} (h : List.Pairwise (fun p q : Pixel => p.before q = true) f) (p : Pixel) :
    List.Pairwise (fun p q : Pixel => p.before q = true) (f.toggle p) := by
  induction f with
  | nil => simp [toggle]
  | cons r f ih =>
    obtain ⟨hr, hf⟩ := List.pairwise_cons.1 h
    simp only [toggle]
    split
    · exact hf
    · rename_i hpr
      split
      · rename_i hb
        refine List.pairwise_cons.2 ⟨fun z hz => ?_, h⟩
        rcases List.mem_cons.1 hz with rfl | hz
        · exact hb
        · exact Pixel.before_trans hb (hr z hz)
      · rename_i hb
        refine List.pairwise_cons.2 ⟨fun z hz => ?_, ih hf⟩
        rw [mem_toggle hf] at hz
        split at hz
        · rename_i e
          subst e
          exact Pixel.before_of_not hpr hb
        · exact hr z hz

/-- The toggle of a pixel of the display keeps the canonical form. -/
theorem toggle_wf {f : Frame} {w h : Nat} (hf : f.wf w h) {p : Pixel} (hp : p.x < w ∧ p.y < h) :
    (f.toggle p).wf w h := by
  refine ⟨toggle_sorted hf.1 p, fun q hq => ?_⟩
  rw [mem_toggle hf.1] at hq
  split at hq
  · rename_i e
    exact e ▸ hp
  · exact hf.2 q hq

/-- One toggle changes one pixel (R132). -/
theorem lit_toggle {f : Frame} (h : List.Pairwise (fun p q : Pixel => p.before q = true) f) (p q : Pixel) :
    (f.toggle p).lit q = if q = p then !f.lit p else f.lit q := by
  rw [Bool.eq_iff_iff, lit_iff, mem_toggle h]
  split <;> simp [lit]

@[simp] theorem toggleAll_nil (f : Frame) : f.toggleAll [] = (f, false) := rfl

@[simp] theorem toggleAll_cons (f : Frame) (p : Pixel) (ps : List Pixel) :
    f.toggleAll (p :: ps) = (((f.toggle p).toggleAll ps).1, f.lit p || ((f.toggle p).toggleAll ps).2) := rfl

theorem toggleAll_sorted {f : Frame} (h : List.Pairwise (fun p q : Pixel => p.before q = true) f) (ps : List Pixel) :
    List.Pairwise (fun p q : Pixel => p.before q = true) (f.toggleAll ps).1 := by
  induction ps generalizing f with
  | nil => exact h
  | cons p ps ih => exact ih (toggle_sorted h p)

theorem toggleAll_wf {f : Frame} {w h : Nat} (hf : f.wf w h) {ps : List Pixel}
    (hp : ∀ p ∈ ps, p.x < w ∧ p.y < h) : (f.toggleAll ps).1.wf w h := by
  induction ps generalizing f with
  | nil => exact hf
  | cons p ps ih =>
    exact ih (toggle_wf hf (hp p (by simp))) fun q hq => hp q (by simp [hq])

/-- Distinct toggles flip exactly the listed pixels, in whatever order they stand (R134 (e)). -/
theorem lit_toggleAll {f : Frame} (h : List.Pairwise (fun p q : Pixel => p.before q = true) f) {ps : List Pixel}
    (hn : ps.Nodup) (q : Pixel) : (f.toggleAll ps).1.lit q = (f.lit q ^^ decide (q ∈ ps)) := by
  induction ps generalizing f with
  | nil => simp
  | cons p ps ih =>
    obtain ⟨hp, hn'⟩ := List.nodup_cons.1 hn
    rw [toggleAll_cons, ih (toggle_sorted h p) hn', lit_toggle h]
    by_cases hq : q = p
    · subst hq
      simp [hp]
    · simp [hq]

/-- Distinct toggles collide exactly when one of the pixels was set before (R131, R134). -/
theorem toggleAll_collides {f : Frame} (h : List.Pairwise (fun p q : Pixel => p.before q = true) f) {ps : List Pixel}
    (hn : ps.Nodup) : (f.toggleAll ps).2 = ps.any f.lit := by
  induction ps generalizing f with
  | nil => rfl
  | cons p ps ih =>
    obtain ⟨hp, hn'⟩ := List.nodup_cons.1 hn
    rw [toggleAll_cons, List.any_cons, ih (toggle_sorted h p) hn']
    have hsame : ps.any (f.toggle p).lit = ps.any f.lit := by
      rw [Bool.eq_iff_iff, List.any_eq_true, List.any_eq_true]
      refine exists_congr fun q => and_congr_right fun hq => ?_
      have hqp : q ≠ p := fun e => hp (e ▸ hq)
      rw [lit_toggle h, if_neg hqp]
    rw [hsame]

end Frame

/-! ### The toggles of a sprite -/

/-- A pixel of a sprite row: its row, and the column of a set bit inside the display (R134). -/
theorem mem_spriteRow (w h x0 y : Nat) (b : Byte) (p : Pixel) :
    p ∈ spriteRow w h x0 y b ↔
      p.y = y ∧ y < h ∧ x0 ≤ p.x ∧ p.x < x0 + 8 ∧ p.x < w ∧ b.getLsbD (7 - (p.x - x0)) = true := by
  obtain ⟨px, py⟩ := p
  unfold spriteRow
  split
  · rename_i hy
    simp only [List.mem_map, List.mem_filter, List.mem_range, Bool.and_eq_true, decide_eq_true_eq, Pixel.mk.injEq]
    constructor
    · rintro ⟨c, ⟨hc, hw, hb⟩, rfl, rfl⟩
      refine ⟨rfl, hy, by omega, by omega, hw, ?_⟩
      rwa [Nat.add_sub_cancel_left]
    · rintro ⟨rfl, -, hx, hx8, hw, hb⟩
      exact ⟨px - x0, ⟨by omega, by omega, hb⟩, by omega, rfl⟩
  · rename_i hy
    simp [hy]

/-- A toggle of `DXYN`: the pixel's row and column inside the sprite and inside the display, over a set bit (R134). -/
theorem mem_spriteToggles (s : State) (x y : Reg) (n : Nat) (p : Pixel) :
    p ∈ s.spriteToggles x y n ↔
      s.startRow y ≤ p.y ∧ p.y < s.startRow y + n ∧ p.y < s.cfg.displayH ∧
      s.startColumn x ≤ p.x ∧ p.x < s.startColumn x + 8 ∧ p.x < s.cfg.displayW ∧
      (s.mem.read (s.base + (p.y - s.startRow y))).getLsbD (7 - (p.x - s.startColumn x)) = true := by
  simp only [State.spriteToggles, List.mem_flatMap, List.mem_range, mem_spriteRow]
  constructor
  · rintro ⟨r, hr, hy, hh, hx, hx8, hw, hb⟩
    refine ⟨by omega, by omega, by omega, hx, hx8, hw, ?_⟩
    rwa [hy, Nat.add_sub_cancel_left]
  · rintro ⟨hy, hyn, hh, hx, hx8, hw, hb⟩
    exact ⟨p.y - s.startRow y, by omega, by omega, by omega, hx, hx8, hw, hb⟩

/-- The CORE only toggles pixels of the display (R131). -/
theorem spriteToggles_inside (s : State) (x y : Reg) (n : Nat) :
    ∀ p ∈ s.spriteToggles x y n, p.x < s.cfg.displayW ∧ p.y < s.cfg.displayH := fun p hp => by
  rw [mem_spriteToggles] at hp
  exact ⟨hp.2.2.2.2.2.1, hp.2.2.1⟩

theorem spriteRow_nodup (w h x0 y : Nat) (b : Byte) : (spriteRow w h x0 y b).Nodup := by
  unfold spriteRow
  split
  · exact (List.nodup_range.filter _).map fun a b h => by simpa using h
  · exact List.nodup_nil

/-- R134 (e): within one `DXYN` no pixel is toggled twice. -/
theorem spriteToggles_nodup (s : State) (x y : Reg) (n : Nat) : (s.spriteToggles x y n).Nodup := by
  unfold State.spriteToggles
  rw [List.nodup_flatMap]
  refine ⟨fun r _ => spriteRow_nodup _ _ _ _ _, List.nodup_range.imp fun hab => ?_⟩
  simp only [Function.onFun, List.Disjoint]
  intro p hp hq
  rw [mem_spriteRow] at hp hq
  omega

end Sys2Proof.Machine
end

