-- ==== Sys2Proof/Laws/Memory.lean ====
section
/-! SUPPORT. The laws of memory: every write keeps the canonical form, a read after a write, and the same for a run of
consecutive cells (20_memory.md R73, R80). -/

namespace Sys2Proof.Machine.Memory

@[simp] theorem read_nil (a : Nat) : Memory.read [] a = 0 := rfl

@[simp] theorem read_cons (c : Host.Cell) (m : Memory) (a : Nat) :
    Memory.read (c :: m) a = if c.1 = a then c.2 else Memory.read m a := rfl

@[simp] theorem writeBytes_nil (m : Memory) (a : Nat) : m.writeBytes a [] = m := rfl

theorem writeBytes_cons (m : Memory) (a : Nat) (b : Byte) (bs : List Byte) :
    m.writeBytes a (b :: bs) = (m.write a b).writeBytes (a + 1) bs := rfl

theorem write_nil (a : Nat) (b : Byte) : Memory.write [] a b = if b = 0 then [] else [(a, b)] := rfl

theorem nil_wf : Memory.wf [] := ⟨List.Pairwise.nil, fun _ h => nomatch h⟩

/-- An address below every listed one reads as 0. -/
theorem read_eq_zero_of_below {m : Memory} {a : Nat} (h : ∀ c ∈ m, a < c.1) : m.read a = 0 := by
  induction m with
  | nil => rfl
  | cons c m ih =>
    have hc := h c (by simp)
    simp only [read_cons, if_neg (Nat.ne_of_gt hc)]
    exact ih fun d hd => h d (by simp [hd])

/-- Every cell of a written memory is the written one or an old one. -/
theorem mem_write {m : Memory} {a : Nat} {b : Byte} {c : Host.Cell} (h : c ∈ m.write a b) :
    (c = (a, b) ∧ b ≠ 0) ∨ c ∈ m := by
  induction m with
  | nil =>
    rw [write_nil] at h
    split at h
    · cases h
    · exact .inl ⟨List.mem_singleton.1 h, ‹_›⟩
  | cons d m ih =>
    obtain ⟨k, e⟩ := d
    simp only [Memory.write] at h
    split at h
    · split at h
      · exact .inr h
      · rcases List.mem_cons.1 h with rfl | h
        · exact .inl ⟨rfl, ‹_›⟩
        · exact .inr h
    · split at h
      · split at h
        · exact .inr (List.mem_cons_of_mem _ h)
        · rcases List.mem_cons.1 h with rfl | h
          · exact .inl ⟨rfl, ‹_›⟩
          · exact .inr (List.mem_cons_of_mem _ h)
      · rcases List.mem_cons.1 h with rfl | h
        · exact .inr (by simp)
        · rcases ih h with h | h
          · exact .inl h
          · exact .inr (List.mem_cons_of_mem _ h)

/-- A write keeps the canonical form. -/
theorem write_wf {m : Memory} (h : m.wf) (a : Nat) (b : Byte) : (m.write a b).wf := by
  refine ⟨?_, fun c hc => ?_⟩
  · induction m with
    | nil => rw [write_nil]; split <;> simp
    | cons d m ih =>
      obtain ⟨k, e⟩ := d
      obtain ⟨hs, hz⟩ := h
      obtain ⟨hk, hs'⟩ := List.pairwise_cons.1 hs
      have hz' : ∀ c ∈ m, c.2 ≠ 0 := fun c hc => hz c (by simp [hc])
      simp only [Memory.write]
      split
      · rename_i hlt
        split
        · exact hs
        · refine List.pairwise_cons.2 ⟨fun c hc => ?_, hs⟩
          rcases List.mem_cons.1 hc with rfl | hc
          · exact hlt
          · exact Nat.lt_trans hlt (hk c hc)
      · rename_i hge
        split
        · rename_i heq
          subst heq
          split
          · exact hs'
          · exact List.pairwise_cons.2 ⟨hk, hs'⟩
        · rename_i hne
          refine List.pairwise_cons.2 ⟨fun c hc => ?_, ih ⟨hs', hz'⟩⟩
          rcases mem_write hc with ⟨rfl, -⟩ | hc
          · show k < a
            omega
          · exact hk c hc
  · rcases mem_write hc with ⟨rfl, hb⟩ | hc
    · exact hb
    · exact h.2 c hc

/-- A write inside `size` lists nothing outside it. -/
theorem write_within {m : Memory} {size a : Nat} (h : m.within size) (ha : a < size) (b : Byte) :
    (m.write a b).within size := by
  intro c hc
  rcases mem_write hc with ⟨rfl, -⟩ | hc
  · exact ha
  · exact h c hc

/-- Read after write: the written cell holds the value, every other cell is unchanged (R73). -/
theorem read_write {m : Memory} (h : m.wf) (a c : Nat) (b : Byte) :
    (m.write a b).read c = if c = a then b else m.read c := by
  induction m with
  | nil =>
    rw [write_nil]
    split
    · rename_i hb
      simp [hb]
    · simp [eq_comm (a := c)]
  | cons d m ih =>
    obtain ⟨k, e⟩ := d
    obtain ⟨hs, hz⟩ := h
    obtain ⟨hk, hs'⟩ := List.pairwise_cons.1 hs
    have hwf' : Memory.wf m := ⟨hs', fun c hc => hz c (by simp [hc])⟩
    have habove : ∀ x ≤ k, Memory.read m x = 0 := fun x hx =>
      read_eq_zero_of_below fun c hc => Nat.lt_of_le_of_lt hx (hk c hc)
    simp only [Memory.write]
    split
    · rename_i hlt
      split
      · rename_i hb
        subst hb
        by_cases hca : c = a
        · subst hca
          simp [Nat.ne_of_gt hlt, habove c (Nat.le_of_lt hlt)]
        · simp [hca]
      · by_cases hca : c = a
        · simp [hca]
        · simp [hca, Ne.symm hca]
    · rename_i hge
      split
      · rename_i heq
        subst heq
        split
        · rename_i hb
          subst hb
          by_cases hca : c = a
          · simp [hca, habove a (Nat.le_refl _)]
          · simp [hca, Ne.symm hca]
        · by_cases hca : c = a
          · simp [hca]
          · simp [hca, Ne.symm hca]
      · rename_i hne
        simp only [read_cons, ih hwf']
        by_cases hkc : k = c
        · subst hkc
          simp [Ne.symm hne]
        · simp [hkc]

theorem writeBytes_wf {m : Memory} (h : m.wf) (a : Nat) (bs : List Byte) : (m.writeBytes a bs).wf := by
  induction bs generalizing m a with
  | nil => exact h
  | cons b bs ih => exact ih (write_wf h a b) (a + 1)

theorem writeBytes_within {m : Memory} {size a : Nat} {bs : List Byte} (h : m.within size)
    (ha : a + bs.length ≤ size) : (m.writeBytes a bs).within size := by
  induction bs generalizing m a with
  | nil => exact h
  | cons b bs ih =>
    rw [List.length_cons] at ha
    exact ih (write_within h (by omega) b) (by omega)

/-- Reading after writing a run of cells: inside the run the byte at that offset, elsewhere the old byte. -/
theorem read_writeBytes {m : Memory} (h : m.wf) (a c : Nat) (bs : List Byte) :
    (m.writeBytes a bs).read c =
      if a ≤ c ∧ c < a + bs.length then bs.getD (c - a) 0 else m.read c := by
  induction bs generalizing m a with
  | nil => simp
  | cons b bs ih =>
    rw [writeBytes_cons, ih (write_wf h a b), read_write h, List.length_cons]
    by_cases hca : c = a
    · subst hca
      simp
    · by_cases hin : a + 1 ≤ c ∧ c < a + 1 + bs.length
      · rw [if_pos hin, if_pos (by omega), show c - a = (c - (a + 1)) + 1 by omega]
        rfl
      · rw [if_neg hin, if_neg hca, if_neg (by omega)]

/-- Cells outside the run are unchanged. -/
theorem read_writeBytes_outside {m : Memory} (h : m.wf) {a c : Nat} {bs : List Byte}
    (hc : c < a ∨ a + bs.length ≤ c) : (m.writeBytes a bs).read c = m.read c := by
  rw [read_writeBytes h, if_neg (by omega)]

end Sys2Proof.Machine.Memory
end

