-- ==== Sys2Proof/Laws/State.lean ====
section
/-! SUPPORT. One lemma per field per update of the state, so that no proof unfolds a record update, and the register read
after each register write. -/

namespace Sys2Proof.Machine.State

/-! ### setReg -/

@[simp] theorem setReg_cfg (s : State) (r : Reg) (b : Byte) : (s.setReg r b).cfg = s.cfg := rfl
@[simp] theorem setReg_v (s : State) (r : Reg) (b : Byte) : (s.setReg r b).v = s.v.set r.val b := rfl
@[simp] theorem setReg_i (s : State) (r : Reg) (b : Byte) : (s.setReg r b).i = s.i := rfl
@[simp] theorem setReg_pc (s : State) (r : Reg) (b : Byte) : (s.setReg r b).pc = s.pc := rfl
@[simp] theorem setReg_stk (s : State) (r : Reg) (b : Byte) : (s.setReg r b).stk = s.stk := rfl
@[simp] theorem setReg_dt (s : State) (r : Reg) (b : Byte) : (s.setReg r b).dt = s.dt := rfl
@[simp] theorem setReg_st (s : State) (r : Reg) (b : Byte) : (s.setReg r b).st = s.st := rfl
@[simp] theorem setReg_mem (s : State) (r : Reg) (b : Byte) : (s.setReg r b).mem = s.mem := rfl
@[simp] theorem setReg_wait (s : State) (r : Reg) (b : Byte) : (s.setReg r b).wait = s.wait := rfl
@[simp] theorem setReg_wreg (s : State) (r : Reg) (b : Byte) : (s.setReg r b).wreg = s.wreg := rfl
@[simp] theorem setReg_sched (s : State) (r : Reg) (b : Byte) : (s.setReg r b).sched = s.sched := rfl
@[simp] theorem setReg_flt (s : State) (r : Reg) (b : Byte) : (s.setReg r b).flt = s.flt := rfl
@[simp] theorem setReg_fb (s : State) (r : Reg) (b : Byte) : (s.setReg r b).fb = s.fb := rfl
@[simp] theorem setReg_keys (s : State) (r : Reg) (b : Byte) : (s.setReg r b).keys = s.keys := rfl
@[simp] theorem setReg_rndFeed (s : State) (r : Reg) (b : Byte) : (s.setReg r b).rndFeed = s.rndFeed := rfl
@[simp] theorem setReg_draws (s : State) (r : Reg) (b : Byte) : (s.setReg r b).draws = s.draws := rfl
@[simp] theorem setReg_pending (s : State) (r : Reg) (b : Byte) : (s.setReg r b).pending = s.pending := rfl

/-! ### setI -/

@[simp] theorem setI_cfg (s : State) (w : Word) : (s.setI w).cfg = s.cfg := rfl
@[simp] theorem setI_v (s : State) (w : Word) : (s.setI w).v = s.v := rfl
@[simp] theorem setI_i (s : State) (w : Word) : (s.setI w).i = w := rfl
@[simp] theorem setI_pc (s : State) (w : Word) : (s.setI w).pc = s.pc := rfl
@[simp] theorem setI_stk (s : State) (w : Word) : (s.setI w).stk = s.stk := rfl
@[simp] theorem setI_dt (s : State) (w : Word) : (s.setI w).dt = s.dt := rfl
@[simp] theorem setI_st (s : State) (w : Word) : (s.setI w).st = s.st := rfl
@[simp] theorem setI_mem (s : State) (w : Word) : (s.setI w).mem = s.mem := rfl
@[simp] theorem setI_wait (s : State) (w : Word) : (s.setI w).wait = s.wait := rfl
@[simp] theorem setI_wreg (s : State) (w : Word) : (s.setI w).wreg = s.wreg := rfl
@[simp] theorem setI_sched (s : State) (w : Word) : (s.setI w).sched = s.sched := rfl
@[simp] theorem setI_flt (s : State) (w : Word) : (s.setI w).flt = s.flt := rfl
@[simp] theorem setI_fb (s : State) (w : Word) : (s.setI w).fb = s.fb := rfl
@[simp] theorem setI_keys (s : State) (w : Word) : (s.setI w).keys = s.keys := rfl
@[simp] theorem setI_rndFeed (s : State) (w : Word) : (s.setI w).rndFeed = s.rndFeed := rfl
@[simp] theorem setI_draws (s : State) (w : Word) : (s.setI w).draws = s.draws := rfl
@[simp] theorem setI_pending (s : State) (w : Word) : (s.setI w).pending = s.pending := rfl

/-! ### setPc -/

@[simp] theorem setPc_cfg (s : State) (w : Word) : (s.setPc w).cfg = s.cfg := rfl
@[simp] theorem setPc_v (s : State) (w : Word) : (s.setPc w).v = s.v := rfl
@[simp] theorem setPc_i (s : State) (w : Word) : (s.setPc w).i = s.i := rfl
@[simp] theorem setPc_pc (s : State) (w : Word) : (s.setPc w).pc = w := rfl
@[simp] theorem setPc_stk (s : State) (w : Word) : (s.setPc w).stk = s.stk := rfl
@[simp] theorem setPc_dt (s : State) (w : Word) : (s.setPc w).dt = s.dt := rfl
@[simp] theorem setPc_st (s : State) (w : Word) : (s.setPc w).st = s.st := rfl
@[simp] theorem setPc_mem (s : State) (w : Word) : (s.setPc w).mem = s.mem := rfl
@[simp] theorem setPc_wait (s : State) (w : Word) : (s.setPc w).wait = s.wait := rfl
@[simp] theorem setPc_wreg (s : State) (w : Word) : (s.setPc w).wreg = s.wreg := rfl
@[simp] theorem setPc_sched (s : State) (w : Word) : (s.setPc w).sched = s.sched := rfl
@[simp] theorem setPc_flt (s : State) (w : Word) : (s.setPc w).flt = s.flt := rfl
@[simp] theorem setPc_fb (s : State) (w : Word) : (s.setPc w).fb = s.fb := rfl
@[simp] theorem setPc_keys (s : State) (w : Word) : (s.setPc w).keys = s.keys := rfl
@[simp] theorem setPc_rndFeed (s : State) (w : Word) : (s.setPc w).rndFeed = s.rndFeed := rfl
@[simp] theorem setPc_draws (s : State) (w : Word) : (s.setPc w).draws = s.draws := rfl
@[simp] theorem setPc_pending (s : State) (w : Word) : (s.setPc w).pending = s.pending := rfl

/-! ### advance -/

@[simp] theorem advance_cfg (s : State) : (s.advance).cfg = s.cfg := rfl
@[simp] theorem advance_v (s : State) : (s.advance).v = s.v := rfl
@[simp] theorem advance_i (s : State) : (s.advance).i = s.i := rfl
@[simp] theorem advance_pc (s : State) : (s.advance).pc = s.npc := rfl
@[simp] theorem advance_stk (s : State) : (s.advance).stk = s.stk := rfl
@[simp] theorem advance_dt (s : State) : (s.advance).dt = s.dt := rfl
@[simp] theorem advance_st (s : State) : (s.advance).st = s.st := rfl
@[simp] theorem advance_mem (s : State) : (s.advance).mem = s.mem := rfl
@[simp] theorem advance_wait (s : State) : (s.advance).wait = s.wait := rfl
@[simp] theorem advance_wreg (s : State) : (s.advance).wreg = s.wreg := rfl
@[simp] theorem advance_sched (s : State) : (s.advance).sched = s.sched := rfl
@[simp] theorem advance_flt (s : State) : (s.advance).flt = s.flt := rfl
@[simp] theorem advance_fb (s : State) : (s.advance).fb = s.fb := rfl
@[simp] theorem advance_keys (s : State) : (s.advance).keys = s.keys := rfl
@[simp] theorem advance_rndFeed (s : State) : (s.advance).rndFeed = s.rndFeed := rfl
@[simp] theorem advance_draws (s : State) : (s.advance).draws = s.draws := rfl
@[simp] theorem advance_pending (s : State) : (s.advance).pending = s.pending := rfl

/-! ### skipIf -/

@[simp] theorem skipIf_cfg (s : State) (c : Bool) : (s.skipIf c).cfg = s.cfg := rfl
@[simp] theorem skipIf_v (s : State) (c : Bool) : (s.skipIf c).v = s.v := rfl
@[simp] theorem skipIf_i (s : State) (c : Bool) : (s.skipIf c).i = s.i := rfl
@[simp] theorem skipIf_pc (s : State) (c : Bool) : (s.skipIf c).pc = if c then s.npc + 2 else s.npc := rfl
@[simp] theorem skipIf_stk (s : State) (c : Bool) : (s.skipIf c).stk = s.stk := rfl
@[simp] theorem skipIf_dt (s : State) (c : Bool) : (s.skipIf c).dt = s.dt := rfl
@[simp] theorem skipIf_st (s : State) (c : Bool) : (s.skipIf c).st = s.st := rfl
@[simp] theorem skipIf_mem (s : State) (c : Bool) : (s.skipIf c).mem = s.mem := rfl
@[simp] theorem skipIf_wait (s : State) (c : Bool) : (s.skipIf c).wait = s.wait := rfl
@[simp] theorem skipIf_wreg (s : State) (c : Bool) : (s.skipIf c).wreg = s.wreg := rfl
@[simp] theorem skipIf_sched (s : State) (c : Bool) : (s.skipIf c).sched = s.sched := rfl
@[simp] theorem skipIf_flt (s : State) (c : Bool) : (s.skipIf c).flt = s.flt := rfl
@[simp] theorem skipIf_fb (s : State) (c : Bool) : (s.skipIf c).fb = s.fb := rfl
@[simp] theorem skipIf_keys (s : State) (c : Bool) : (s.skipIf c).keys = s.keys := rfl
@[simp] theorem skipIf_rndFeed (s : State) (c : Bool) : (s.skipIf c).rndFeed = s.rndFeed := rfl
@[simp] theorem skipIf_draws (s : State) (c : Bool) : (s.skipIf c).draws = s.draws := rfl
@[simp] theorem skipIf_pending (s : State) (c : Bool) : (s.skipIf c).pending = s.pending := rfl

/-! ### setStk -/

@[simp] theorem setStk_cfg (s : State) (ws : List Word) : (s.setStk ws).cfg = s.cfg := rfl
@[simp] theorem setStk_v (s : State) (ws : List Word) : (s.setStk ws).v = s.v := rfl
@[simp] theorem setStk_i (s : State) (ws : List Word) : (s.setStk ws).i = s.i := rfl
@[simp] theorem setStk_pc (s : State) (ws : List Word) : (s.setStk ws).pc = s.pc := rfl
@[simp] theorem setStk_stk (s : State) (ws : List Word) : (s.setStk ws).stk = ws := rfl
@[simp] theorem setStk_dt (s : State) (ws : List Word) : (s.setStk ws).dt = s.dt := rfl
@[simp] theorem setStk_st (s : State) (ws : List Word) : (s.setStk ws).st = s.st := rfl
@[simp] theorem setStk_mem (s : State) (ws : List Word) : (s.setStk ws).mem = s.mem := rfl
@[simp] theorem setStk_wait (s : State) (ws : List Word) : (s.setStk ws).wait = s.wait := rfl
@[simp] theorem setStk_wreg (s : State) (ws : List Word) : (s.setStk ws).wreg = s.wreg := rfl
@[simp] theorem setStk_sched (s : State) (ws : List Word) : (s.setStk ws).sched = s.sched := rfl
@[simp] theorem setStk_flt (s : State) (ws : List Word) : (s.setStk ws).flt = s.flt := rfl
@[simp] theorem setStk_fb (s : State) (ws : List Word) : (s.setStk ws).fb = s.fb := rfl
@[simp] theorem setStk_keys (s : State) (ws : List Word) : (s.setStk ws).keys = s.keys := rfl
@[simp] theorem setStk_rndFeed (s : State) (ws : List Word) : (s.setStk ws).rndFeed = s.rndFeed := rfl
@[simp] theorem setStk_draws (s : State) (ws : List Word) : (s.setStk ws).draws = s.draws := rfl
@[simp] theorem setStk_pending (s : State) (ws : List Word) : (s.setStk ws).pending = s.pending := rfl

/-! ### setPending -/

@[simp] theorem setPending_cfg (s : State) (es : List Event) : (s.setPending es).cfg = s.cfg := rfl
@[simp] theorem setPending_v (s : State) (es : List Event) : (s.setPending es).v = s.v := rfl
@[simp] theorem setPending_i (s : State) (es : List Event) : (s.setPending es).i = s.i := rfl
@[simp] theorem setPending_pc (s : State) (es : List Event) : (s.setPending es).pc = s.pc := rfl
@[simp] theorem setPending_stk (s : State) (es : List Event) : (s.setPending es).stk = s.stk := rfl
@[simp] theorem setPending_dt (s : State) (es : List Event) : (s.setPending es).dt = s.dt := rfl
@[simp] theorem setPending_st (s : State) (es : List Event) : (s.setPending es).st = s.st := rfl
@[simp] theorem setPending_mem (s : State) (es : List Event) : (s.setPending es).mem = s.mem := rfl
@[simp] theorem setPending_wait (s : State) (es : List Event) : (s.setPending es).wait = s.wait := rfl
@[simp] theorem setPending_wreg (s : State) (es : List Event) : (s.setPending es).wreg = s.wreg := rfl
@[simp] theorem setPending_sched (s : State) (es : List Event) : (s.setPending es).sched = s.sched := rfl
@[simp] theorem setPending_flt (s : State) (es : List Event) : (s.setPending es).flt = s.flt := rfl
@[simp] theorem setPending_fb (s : State) (es : List Event) : (s.setPending es).fb = s.fb := rfl
@[simp] theorem setPending_keys (s : State) (es : List Event) : (s.setPending es).keys = s.keys := rfl
@[simp] theorem setPending_rndFeed (s : State) (es : List Event) : (s.setPending es).rndFeed = s.rndFeed := rfl
@[simp] theorem setPending_draws (s : State) (es : List Event) : (s.setPending es).draws = s.draws := rfl
@[simp] theorem setPending_pending (s : State) (es : List Event) : (s.setPending es).pending = es := rfl

/-! ### setDt -/

@[simp] theorem setDt_cfg (s : State) (b : Byte) : (s.setDt b).cfg = s.cfg := rfl
@[simp] theorem setDt_v (s : State) (b : Byte) : (s.setDt b).v = s.v := rfl
@[simp] theorem setDt_i (s : State) (b : Byte) : (s.setDt b).i = s.i := rfl
@[simp] theorem setDt_pc (s : State) (b : Byte) : (s.setDt b).pc = s.pc := rfl
@[simp] theorem setDt_stk (s : State) (b : Byte) : (s.setDt b).stk = s.stk := rfl
@[simp] theorem setDt_dt (s : State) (b : Byte) : (s.setDt b).dt = b := rfl
@[simp] theorem setDt_st (s : State) (b : Byte) : (s.setDt b).st = s.st := rfl
@[simp] theorem setDt_mem (s : State) (b : Byte) : (s.setDt b).mem = s.mem := rfl
@[simp] theorem setDt_wait (s : State) (b : Byte) : (s.setDt b).wait = s.wait := rfl
@[simp] theorem setDt_wreg (s : State) (b : Byte) : (s.setDt b).wreg = s.wreg := rfl
@[simp] theorem setDt_sched (s : State) (b : Byte) : (s.setDt b).sched = s.sched := rfl
@[simp] theorem setDt_flt (s : State) (b : Byte) : (s.setDt b).flt = s.flt := rfl
@[simp] theorem setDt_fb (s : State) (b : Byte) : (s.setDt b).fb = s.fb := rfl
@[simp] theorem setDt_keys (s : State) (b : Byte) : (s.setDt b).keys = s.keys := rfl
@[simp] theorem setDt_rndFeed (s : State) (b : Byte) : (s.setDt b).rndFeed = s.rndFeed := rfl
@[simp] theorem setDt_draws (s : State) (b : Byte) : (s.setDt b).draws = s.draws := rfl
@[simp] theorem setDt_pending (s : State) (b : Byte) : (s.setDt b).pending = s.pending := rfl

/-! ### setSt -/

@[simp] theorem setSt_cfg (s : State) (b : Byte) : (s.setSt b).cfg = s.cfg := rfl
@[simp] theorem setSt_v (s : State) (b : Byte) : (s.setSt b).v = s.v := rfl
@[simp] theorem setSt_i (s : State) (b : Byte) : (s.setSt b).i = s.i := rfl
@[simp] theorem setSt_pc (s : State) (b : Byte) : (s.setSt b).pc = s.pc := rfl
@[simp] theorem setSt_stk (s : State) (b : Byte) : (s.setSt b).stk = s.stk := rfl
@[simp] theorem setSt_dt (s : State) (b : Byte) : (s.setSt b).dt = s.dt := rfl
@[simp] theorem setSt_st (s : State) (b : Byte) : (s.setSt b).st = b := rfl
@[simp] theorem setSt_mem (s : State) (b : Byte) : (s.setSt b).mem = s.mem := rfl
@[simp] theorem setSt_wait (s : State) (b : Byte) : (s.setSt b).wait = s.wait := rfl
@[simp] theorem setSt_wreg (s : State) (b : Byte) : (s.setSt b).wreg = s.wreg := rfl
@[simp] theorem setSt_sched (s : State) (b : Byte) : (s.setSt b).sched = s.sched := rfl
@[simp] theorem setSt_flt (s : State) (b : Byte) : (s.setSt b).flt = s.flt := rfl
@[simp] theorem setSt_fb (s : State) (b : Byte) : (s.setSt b).fb = s.fb := rfl
@[simp] theorem setSt_keys (s : State) (b : Byte) : (s.setSt b).keys = s.keys := rfl
@[simp] theorem setSt_rndFeed (s : State) (b : Byte) : (s.setSt b).rndFeed = s.rndFeed := rfl
@[simp] theorem setSt_draws (s : State) (b : Byte) : (s.setSt b).draws = s.draws := rfl
@[simp] theorem setSt_pending (s : State) (b : Byte) : (s.setSt b).pending = s.pending := rfl

/-! ### store -/

@[simp] theorem store_cfg (s : State) (a : Nat) (bs : List Byte) : (s.store a bs).cfg = s.cfg := rfl
@[simp] theorem store_v (s : State) (a : Nat) (bs : List Byte) : (s.store a bs).v = s.v := rfl
@[simp] theorem store_i (s : State) (a : Nat) (bs : List Byte) : (s.store a bs).i = s.i := rfl
@[simp] theorem store_pc (s : State) (a : Nat) (bs : List Byte) : (s.store a bs).pc = s.pc := rfl
@[simp] theorem store_stk (s : State) (a : Nat) (bs : List Byte) : (s.store a bs).stk = s.stk := rfl
@[simp] theorem store_dt (s : State) (a : Nat) (bs : List Byte) : (s.store a bs).dt = s.dt := rfl
@[simp] theorem store_st (s : State) (a : Nat) (bs : List Byte) : (s.store a bs).st = s.st := rfl
@[simp] theorem store_mem (s : State) (a : Nat) (bs : List Byte) : (s.store a bs).mem = s.mem.writeBytes a bs := rfl
@[simp] theorem store_wait (s : State) (a : Nat) (bs : List Byte) : (s.store a bs).wait = s.wait := rfl
@[simp] theorem store_wreg (s : State) (a : Nat) (bs : List Byte) : (s.store a bs).wreg = s.wreg := rfl
@[simp] theorem store_sched (s : State) (a : Nat) (bs : List Byte) : (s.store a bs).sched = s.sched := rfl
@[simp] theorem store_flt (s : State) (a : Nat) (bs : List Byte) : (s.store a bs).flt = s.flt := rfl
@[simp] theorem store_fb (s : State) (a : Nat) (bs : List Byte) : (s.store a bs).fb = s.fb := rfl
@[simp] theorem store_keys (s : State) (a : Nat) (bs : List Byte) : (s.store a bs).keys = s.keys := rfl
@[simp] theorem store_rndFeed (s : State) (a : Nat) (bs : List Byte) : (s.store a bs).rndFeed = s.rndFeed := rfl
@[simp] theorem store_draws (s : State) (a : Nat) (bs : List Byte) : (s.store a bs).draws = s.draws := rfl
@[simp] theorem store_pending (s : State) (a : Nat) (bs : List Byte) : (s.store a bs).pending = s.pending := rfl

/-! ### loadRegs -/

@[simp] theorem loadRegs_cfg (s : State) (a : Nat) (x : Reg) : (s.loadRegs a x).cfg = s.cfg := rfl
@[simp] theorem loadRegs_v (s : State) (a : Nat) (x : Reg) : (s.loadRegs a x).v = Vector.ofFn fun k => if k.val ≤ x.val then s.mem.read (a + k.val) else s.v[k.val] := rfl
@[simp] theorem loadRegs_i (s : State) (a : Nat) (x : Reg) : (s.loadRegs a x).i = s.i := rfl
@[simp] theorem loadRegs_pc (s : State) (a : Nat) (x : Reg) : (s.loadRegs a x).pc = s.pc := rfl
@[simp] theorem loadRegs_stk (s : State) (a : Nat) (x : Reg) : (s.loadRegs a x).stk = s.stk := rfl
@[simp] theorem loadRegs_dt (s : State) (a : Nat) (x : Reg) : (s.loadRegs a x).dt = s.dt := rfl
@[simp] theorem loadRegs_st (s : State) (a : Nat) (x : Reg) : (s.loadRegs a x).st = s.st := rfl
@[simp] theorem loadRegs_mem (s : State) (a : Nat) (x : Reg) : (s.loadRegs a x).mem = s.mem := rfl
@[simp] theorem loadRegs_wait (s : State) (a : Nat) (x : Reg) : (s.loadRegs a x).wait = s.wait := rfl
@[simp] theorem loadRegs_wreg (s : State) (a : Nat) (x : Reg) : (s.loadRegs a x).wreg = s.wreg := rfl
@[simp] theorem loadRegs_sched (s : State) (a : Nat) (x : Reg) : (s.loadRegs a x).sched = s.sched := rfl
@[simp] theorem loadRegs_flt (s : State) (a : Nat) (x : Reg) : (s.loadRegs a x).flt = s.flt := rfl
@[simp] theorem loadRegs_fb (s : State) (a : Nat) (x : Reg) : (s.loadRegs a x).fb = s.fb := rfl
@[simp] theorem loadRegs_keys (s : State) (a : Nat) (x : Reg) : (s.loadRegs a x).keys = s.keys := rfl
@[simp] theorem loadRegs_rndFeed (s : State) (a : Nat) (x : Reg) : (s.loadRegs a x).rndFeed = s.rndFeed := rfl
@[simp] theorem loadRegs_draws (s : State) (a : Nat) (x : Reg) : (s.loadRegs a x).draws = s.draws := rfl
@[simp] theorem loadRegs_pending (s : State) (a : Nat) (x : Reg) : (s.loadRegs a x).pending = s.pending := rfl

/-! ### tickTimers -/

@[simp] theorem tickTimers_cfg (s : State) : (s.tickTimers).cfg = s.cfg := rfl
@[simp] theorem tickTimers_v (s : State) : (s.tickTimers).v = s.v := rfl
@[simp] theorem tickTimers_i (s : State) : (s.tickTimers).i = s.i := rfl
@[simp] theorem tickTimers_pc (s : State) : (s.tickTimers).pc = s.pc := rfl
@[simp] theorem tickTimers_stk (s : State) : (s.tickTimers).stk = s.stk := rfl
@[simp] theorem tickTimers_dt (s : State) : (s.tickTimers).dt = countDown s.dt := rfl
@[simp] theorem tickTimers_st (s : State) : (s.tickTimers).st = countDown s.st := rfl
@[simp] theorem tickTimers_mem (s : State) : (s.tickTimers).mem = s.mem := rfl
@[simp] theorem tickTimers_wait (s : State) : (s.tickTimers).wait = s.wait := rfl
@[simp] theorem tickTimers_wreg (s : State) : (s.tickTimers).wreg = s.wreg := rfl
@[simp] theorem tickTimers_sched (s : State) : (s.tickTimers).sched = s.sched := rfl
@[simp] theorem tickTimers_flt (s : State) : (s.tickTimers).flt = s.flt := rfl
@[simp] theorem tickTimers_fb (s : State) : (s.tickTimers).fb = s.fb := rfl
@[simp] theorem tickTimers_keys (s : State) : (s.tickTimers).keys = s.keys := rfl
@[simp] theorem tickTimers_rndFeed (s : State) : (s.tickTimers).rndFeed = s.rndFeed := rfl
@[simp] theorem tickTimers_draws (s : State) : (s.tickTimers).draws = s.draws := rfl
@[simp] theorem tickTimers_pending (s : State) : (s.tickTimers).pending = s.pending := rfl

/-! ### awaitKey -/

@[simp] theorem awaitKey_cfg (s : State) (r : Reg) : (s.awaitKey r).cfg = s.cfg := rfl
@[simp] theorem awaitKey_v (s : State) (r : Reg) : (s.awaitKey r).v = s.v := rfl
@[simp] theorem awaitKey_i (s : State) (r : Reg) : (s.awaitKey r).i = s.i := rfl
@[simp] theorem awaitKey_pc (s : State) (r : Reg) : (s.awaitKey r).pc = s.pc := rfl
@[simp] theorem awaitKey_stk (s : State) (r : Reg) : (s.awaitKey r).stk = s.stk := rfl
@[simp] theorem awaitKey_dt (s : State) (r : Reg) : (s.awaitKey r).dt = s.dt := rfl
@[simp] theorem awaitKey_st (s : State) (r : Reg) : (s.awaitKey r).st = s.st := rfl
@[simp] theorem awaitKey_mem (s : State) (r : Reg) : (s.awaitKey r).mem = s.mem := rfl
@[simp] theorem awaitKey_wait (s : State) (r : Reg) : (s.awaitKey r).wait = true := rfl
@[simp] theorem awaitKey_wreg (s : State) (r : Reg) : (s.awaitKey r).wreg = r := rfl
@[simp] theorem awaitKey_sched (s : State) (r : Reg) : (s.awaitKey r).sched = s.sched := rfl
@[simp] theorem awaitKey_flt (s : State) (r : Reg) : (s.awaitKey r).flt = s.flt := rfl
@[simp] theorem awaitKey_fb (s : State) (r : Reg) : (s.awaitKey r).fb = s.fb := rfl
@[simp] theorem awaitKey_keys (s : State) (r : Reg) : (s.awaitKey r).keys = s.keys := rfl
@[simp] theorem awaitKey_rndFeed (s : State) (r : Reg) : (s.awaitKey r).rndFeed = s.rndFeed := rfl
@[simp] theorem awaitKey_draws (s : State) (r : Reg) : (s.awaitKey r).draws = s.draws := rfl
@[simp] theorem awaitKey_pending (s : State) (r : Reg) : (s.awaitKey r).pending = s.pending := rfl

/-! ### displayClear -/

@[simp] theorem displayClear_cfg (s : State) : (s.displayClear).cfg = s.cfg := rfl
@[simp] theorem displayClear_v (s : State) : (s.displayClear).v = s.v := rfl
@[simp] theorem displayClear_i (s : State) : (s.displayClear).i = s.i := rfl
@[simp] theorem displayClear_pc (s : State) : (s.displayClear).pc = s.pc := rfl
@[simp] theorem displayClear_stk (s : State) : (s.displayClear).stk = s.stk := rfl
@[simp] theorem displayClear_dt (s : State) : (s.displayClear).dt = s.dt := rfl
@[simp] theorem displayClear_st (s : State) : (s.displayClear).st = s.st := rfl
@[simp] theorem displayClear_mem (s : State) : (s.displayClear).mem = s.mem := rfl
@[simp] theorem displayClear_wait (s : State) : (s.displayClear).wait = s.wait := rfl
@[simp] theorem displayClear_wreg (s : State) : (s.displayClear).wreg = s.wreg := rfl
@[simp] theorem displayClear_sched (s : State) : (s.displayClear).sched = s.sched := rfl
@[simp] theorem displayClear_flt (s : State) : (s.displayClear).flt = s.flt := rfl
@[simp] theorem displayClear_fb (s : State) : (s.displayClear).fb = [] := rfl
@[simp] theorem displayClear_keys (s : State) : (s.displayClear).keys = s.keys := rfl
@[simp] theorem displayClear_rndFeed (s : State) : (s.displayClear).rndFeed = s.rndFeed := rfl
@[simp] theorem displayClear_draws (s : State) : (s.displayClear).draws = s.draws := rfl
@[simp] theorem displayClear_pending (s : State) : (s.displayClear).pending = s.pending := rfl

/-! ### displayToggle -/

@[simp] theorem displayToggle_cfg (s : State) (ps : List Pixel) : (s.displayToggle ps).cfg = s.cfg := rfl
@[simp] theorem displayToggle_v (s : State) (ps : List Pixel) : (s.displayToggle ps).v = s.v := rfl
@[simp] theorem displayToggle_i (s : State) (ps : List Pixel) : (s.displayToggle ps).i = s.i := rfl
@[simp] theorem displayToggle_pc (s : State) (ps : List Pixel) : (s.displayToggle ps).pc = s.pc := rfl
@[simp] theorem displayToggle_stk (s : State) (ps : List Pixel) : (s.displayToggle ps).stk = s.stk := rfl
@[simp] theorem displayToggle_dt (s : State) (ps : List Pixel) : (s.displayToggle ps).dt = s.dt := rfl
@[simp] theorem displayToggle_st (s : State) (ps : List Pixel) : (s.displayToggle ps).st = s.st := rfl
@[simp] theorem displayToggle_mem (s : State) (ps : List Pixel) : (s.displayToggle ps).mem = s.mem := rfl
@[simp] theorem displayToggle_wait (s : State) (ps : List Pixel) : (s.displayToggle ps).wait = s.wait := rfl
@[simp] theorem displayToggle_wreg (s : State) (ps : List Pixel) : (s.displayToggle ps).wreg = s.wreg := rfl
@[simp] theorem displayToggle_sched (s : State) (ps : List Pixel) : (s.displayToggle ps).sched = s.sched := rfl
@[simp] theorem displayToggle_flt (s : State) (ps : List Pixel) : (s.displayToggle ps).flt = s.flt := rfl
@[simp] theorem displayToggle_fb (s : State) (ps : List Pixel) : (s.displayToggle ps).fb = (s.fb.toggleAll ps).1 := rfl
@[simp] theorem displayToggle_keys (s : State) (ps : List Pixel) : (s.displayToggle ps).keys = s.keys := rfl
@[simp] theorem displayToggle_rndFeed (s : State) (ps : List Pixel) : (s.displayToggle ps).rndFeed = s.rndFeed := rfl
@[simp] theorem displayToggle_draws (s : State) (ps : List Pixel) : (s.displayToggle ps).draws = s.draws := rfl
@[simp] theorem displayToggle_pending (s : State) (ps : List Pixel) : (s.displayToggle ps).pending = s.pending := rfl

/-! ### keysChange -/

@[simp] theorem keysChange_cfg (s : State) (k : BitVec 16) : (s.keysChange k).cfg = s.cfg := rfl
@[simp] theorem keysChange_v (s : State) (k : BitVec 16) : (s.keysChange k).v = s.v := rfl
@[simp] theorem keysChange_i (s : State) (k : BitVec 16) : (s.keysChange k).i = s.i := rfl
@[simp] theorem keysChange_pc (s : State) (k : BitVec 16) : (s.keysChange k).pc = s.pc := rfl
@[simp] theorem keysChange_stk (s : State) (k : BitVec 16) : (s.keysChange k).stk = s.stk := rfl
@[simp] theorem keysChange_dt (s : State) (k : BitVec 16) : (s.keysChange k).dt = s.dt := rfl
@[simp] theorem keysChange_st (s : State) (k : BitVec 16) : (s.keysChange k).st = s.st := rfl
@[simp] theorem keysChange_mem (s : State) (k : BitVec 16) : (s.keysChange k).mem = s.mem := rfl
@[simp] theorem keysChange_wait (s : State) (k : BitVec 16) : (s.keysChange k).wait = s.wait := rfl
@[simp] theorem keysChange_wreg (s : State) (k : BitVec 16) : (s.keysChange k).wreg = s.wreg := rfl
@[simp] theorem keysChange_sched (s : State) (k : BitVec 16) : (s.keysChange k).sched = s.sched := rfl
@[simp] theorem keysChange_flt (s : State) (k : BitVec 16) : (s.keysChange k).flt = s.flt := rfl
@[simp] theorem keysChange_fb (s : State) (k : BitVec 16) : (s.keysChange k).fb = s.fb := rfl
@[simp] theorem keysChange_keys (s : State) (k : BitVec 16) : (s.keysChange k).keys = k := rfl
@[simp] theorem keysChange_rndFeed (s : State) (k : BitVec 16) : (s.keysChange k).rndFeed = s.rndFeed := rfl
@[simp] theorem keysChange_draws (s : State) (k : BitVec 16) : (s.keysChange k).draws = s.draws := rfl
@[simp] theorem keysChange_pending (s : State) (k : BitVec 16) : (s.keysChange k).pending = s.pending := rfl

/-! ### hostStop -/

@[simp] theorem hostStop_cfg (s : State) : (s.hostStop).cfg = s.cfg := rfl
@[simp] theorem hostStop_v (s : State) : (s.hostStop).v = s.v := rfl
@[simp] theorem hostStop_i (s : State) : (s.hostStop).i = s.i := rfl
@[simp] theorem hostStop_pc (s : State) : (s.hostStop).pc = s.pc := rfl
@[simp] theorem hostStop_stk (s : State) : (s.hostStop).stk = s.stk := rfl
@[simp] theorem hostStop_dt (s : State) : (s.hostStop).dt = s.dt := rfl
@[simp] theorem hostStop_st (s : State) : (s.hostStop).st = s.st := rfl
@[simp] theorem hostStop_mem (s : State) : (s.hostStop).mem = s.mem := rfl
@[simp] theorem hostStop_wait (s : State) : (s.hostStop).wait = s.wait := rfl
@[simp] theorem hostStop_wreg (s : State) : (s.hostStop).wreg = s.wreg := rfl
@[simp] theorem hostStop_sched (s : State) : (s.hostStop).sched = .stopped := rfl
@[simp] theorem hostStop_flt (s : State) : (s.hostStop).flt = s.flt := rfl
@[simp] theorem hostStop_fb (s : State) : (s.hostStop).fb = s.fb := rfl
@[simp] theorem hostStop_keys (s : State) : (s.hostStop).keys = s.keys := rfl
@[simp] theorem hostStop_rndFeed (s : State) : (s.hostStop).rndFeed = s.rndFeed := rfl
@[simp] theorem hostStop_draws (s : State) : (s.hostStop).draws = s.draws := rfl
@[simp] theorem hostStop_pending (s : State) : (s.hostStop).pending = s.pending := rfl

/-! ### hostRunChunk -/

@[simp] theorem hostRunChunk_cfg (s : State) (n : Nat) : (s.hostRunChunk n).cfg = s.cfg := rfl
@[simp] theorem hostRunChunk_v (s : State) (n : Nat) : (s.hostRunChunk n).v = s.v := rfl
@[simp] theorem hostRunChunk_i (s : State) (n : Nat) : (s.hostRunChunk n).i = s.i := rfl
@[simp] theorem hostRunChunk_pc (s : State) (n : Nat) : (s.hostRunChunk n).pc = s.pc := rfl
@[simp] theorem hostRunChunk_stk (s : State) (n : Nat) : (s.hostRunChunk n).stk = s.stk := rfl
@[simp] theorem hostRunChunk_dt (s : State) (n : Nat) : (s.hostRunChunk n).dt = s.dt := rfl
@[simp] theorem hostRunChunk_st (s : State) (n : Nat) : (s.hostRunChunk n).st = s.st := rfl
@[simp] theorem hostRunChunk_mem (s : State) (n : Nat) : (s.hostRunChunk n).mem = s.mem := rfl
@[simp] theorem hostRunChunk_wait (s : State) (n : Nat) : (s.hostRunChunk n).wait = s.wait := rfl
@[simp] theorem hostRunChunk_wreg (s : State) (n : Nat) : (s.hostRunChunk n).wreg = s.wreg := rfl
@[simp] theorem hostRunChunk_sched (s : State) (n : Nat) : (s.hostRunChunk n).sched = s.sched := rfl
@[simp] theorem hostRunChunk_flt (s : State) (n : Nat) : (s.hostRunChunk n).flt = s.flt := rfl
@[simp] theorem hostRunChunk_fb (s : State) (n : Nat) : (s.hostRunChunk n).fb = s.fb := rfl
@[simp] theorem hostRunChunk_keys (s : State) (n : Nat) : (s.hostRunChunk n).keys = s.keys := rfl
@[simp] theorem hostRunChunk_rndFeed (s : State) (n : Nat) : (s.hostRunChunk n).rndFeed = s.rndFeed := rfl
@[simp] theorem hostRunChunk_draws (s : State) (n : Nat) : (s.hostRunChunk n).draws = s.draws := rfl
@[simp] theorem hostRunChunk_pending (s : State) (n : Nat) : (s.hostRunChunk n).pending = List.replicate n .cycle ++ s.pending := rfl

/-! ### hostReset -/

@[simp] theorem hostReset_cfg (s : State) : (s.hostReset).cfg = s.cfg := rfl
@[simp] theorem hostReset_v (s : State) : (s.hostReset).v = Vector.replicate 16 0 := rfl
@[simp] theorem hostReset_i (s : State) : (s.hostReset).i = 0 := rfl
@[simp] theorem hostReset_pc (s : State) : (s.hostReset).pc = s.cfg.programStart := rfl
@[simp] theorem hostReset_stk (s : State) : (s.hostReset).stk = [] := rfl
@[simp] theorem hostReset_dt (s : State) : (s.hostReset).dt = 0 := rfl
@[simp] theorem hostReset_st (s : State) : (s.hostReset).st = 0 := rfl
@[simp] theorem hostReset_mem (s : State) : (s.hostReset).mem = [] := rfl
@[simp] theorem hostReset_wait (s : State) : (s.hostReset).wait = false := rfl
@[simp] theorem hostReset_wreg (s : State) : (s.hostReset).wreg = 0 := rfl
@[simp] theorem hostReset_sched (s : State) : (s.hostReset).sched = .stopped := rfl
@[simp] theorem hostReset_flt (s : State) : (s.hostReset).flt = none := rfl
@[simp] theorem hostReset_fb (s : State) : (s.hostReset).fb = s.fb := rfl
@[simp] theorem hostReset_keys (s : State) : (s.hostReset).keys = s.keys := rfl
@[simp] theorem hostReset_rndFeed (s : State) : (s.hostReset).rndFeed = s.rndFeed := rfl
@[simp] theorem hostReset_draws (s : State) : (s.hostReset).draws = s.draws := rfl
@[simp] theorem hostReset_pending (s : State) : (s.hostReset).pending = s.pending := rfl

/-! ### placeWord -/

@[simp] theorem placeWord_cfg (s : State) (w : Word) : (s.placeWord w).cfg = s.cfg := rfl
@[simp] theorem placeWord_v (s : State) (w : Word) : (s.placeWord w).v = s.v := rfl
@[simp] theorem placeWord_i (s : State) (w : Word) : (s.placeWord w).i = s.i := rfl
@[simp] theorem placeWord_pc (s : State) (w : Word) : (s.placeWord w).pc = s.fetchablePc := rfl
@[simp] theorem placeWord_stk (s : State) (w : Word) : (s.placeWord w).stk = s.stk := rfl
@[simp] theorem placeWord_dt (s : State) (w : Word) : (s.placeWord w).dt = s.dt := rfl
@[simp] theorem placeWord_st (s : State) (w : Word) : (s.placeWord w).st = s.st := rfl
@[simp] theorem placeWord_mem (s : State) (w : Word) : (s.placeWord w).mem = s.mem.writeBytes s.fetchablePc.toNat (bytesOfWord w) := rfl
@[simp] theorem placeWord_wait (s : State) (w : Word) : (s.placeWord w).wait = false := rfl
@[simp] theorem placeWord_wreg (s : State) (w : Word) : (s.placeWord w).wreg = s.wreg := rfl
@[simp] theorem placeWord_sched (s : State) (w : Word) : (s.placeWord w).sched = .started := rfl
@[simp] theorem placeWord_flt (s : State) (w : Word) : (s.placeWord w).flt = none := rfl
@[simp] theorem placeWord_fb (s : State) (w : Word) : (s.placeWord w).fb = s.fb := rfl
@[simp] theorem placeWord_keys (s : State) (w : Word) : (s.placeWord w).keys = s.keys := rfl
@[simp] theorem placeWord_rndFeed (s : State) (w : Word) : (s.placeWord w).rndFeed = s.rndFeed := rfl
@[simp] theorem placeWord_draws (s : State) (w : Word) : (s.placeWord w).draws = s.draws := rfl
@[simp] theorem placeWord_pending (s : State) (w : Word) : (s.placeWord w).pending = [] := rfl

/-! ### Updates that depend on the state -/

@[simp] theorem afterDraw_cfg (s : State) : s.afterDraw.cfg = s.cfg := by unfold afterDraw; split <;> rfl
@[simp] theorem afterDraw_v (s : State) : s.afterDraw.v = s.v := by unfold afterDraw; split <;> rfl
@[simp] theorem afterDraw_i (s : State) : s.afterDraw.i = s.i := by unfold afterDraw; split <;> rfl
@[simp] theorem afterDraw_pc (s : State) : s.afterDraw.pc = s.pc := by unfold afterDraw; split <;> rfl
@[simp] theorem afterDraw_stk (s : State) : s.afterDraw.stk = s.stk := by unfold afterDraw; split <;> rfl
@[simp] theorem afterDraw_dt (s : State) : s.afterDraw.dt = s.dt := by unfold afterDraw; split <;> rfl
@[simp] theorem afterDraw_st (s : State) : s.afterDraw.st = s.st := by unfold afterDraw; split <;> rfl
@[simp] theorem afterDraw_mem (s : State) : s.afterDraw.mem = s.mem := by unfold afterDraw; split <;> rfl
@[simp] theorem afterDraw_wait (s : State) : s.afterDraw.wait = s.wait := by unfold afterDraw; split <;> rfl
@[simp] theorem afterDraw_wreg (s : State) : s.afterDraw.wreg = s.wreg := by unfold afterDraw; split <;> rfl
@[simp] theorem afterDraw_sched (s : State) : s.afterDraw.sched = s.sched := by unfold afterDraw; split <;> rfl
@[simp] theorem afterDraw_flt (s : State) : s.afterDraw.flt = s.flt := by unfold afterDraw; split <;> rfl
@[simp] theorem afterDraw_fb (s : State) : s.afterDraw.fb = s.fb := by unfold afterDraw; split <;> rfl
@[simp] theorem afterDraw_keys (s : State) : s.afterDraw.keys = s.keys := by unfold afterDraw; split <;> rfl
@[simp] theorem afterDraw_pending (s : State) : s.afterDraw.pending = s.pending := by unfold afterDraw; split <;> rfl

@[simp] theorem timerTick_cfg (s : State) : s.timerTick.cfg = s.cfg := by unfold timerTick; split <;> rfl
@[simp] theorem timerTick_v (s : State) : s.timerTick.v = s.v := by unfold timerTick; split <;> rfl
@[simp] theorem timerTick_i (s : State) : s.timerTick.i = s.i := by unfold timerTick; split <;> rfl
@[simp] theorem timerTick_pc (s : State) : s.timerTick.pc = s.pc := by unfold timerTick; split <;> rfl
@[simp] theorem timerTick_stk (s : State) : s.timerTick.stk = s.stk := by unfold timerTick; split <;> rfl
@[simp] theorem timerTick_mem (s : State) : s.timerTick.mem = s.mem := by unfold timerTick; split <;> rfl
@[simp] theorem timerTick_wait (s : State) : s.timerTick.wait = s.wait := by unfold timerTick; split <;> rfl
@[simp] theorem timerTick_wreg (s : State) : s.timerTick.wreg = s.wreg := by unfold timerTick; split <;> rfl
@[simp] theorem timerTick_sched (s : State) : s.timerTick.sched = s.sched := by unfold timerTick; split <;> rfl
@[simp] theorem timerTick_flt (s : State) : s.timerTick.flt = s.flt := by unfold timerTick; split <;> rfl
@[simp] theorem timerTick_fb (s : State) : s.timerTick.fb = s.fb := by unfold timerTick; split <;> rfl
@[simp] theorem timerTick_keys (s : State) : s.timerTick.keys = s.keys := by unfold timerTick; split <;> rfl
@[simp] theorem timerTick_rndFeed (s : State) : s.timerTick.rndFeed = s.rndFeed := by unfold timerTick; split <;> rfl
@[simp] theorem timerTick_draws (s : State) : s.timerTick.draws = s.draws := by unfold timerTick; split <;> rfl
@[simp] theorem timerTick_pending (s : State) : s.timerTick.pending = s.pending := by unfold timerTick; split <;> rfl

@[simp] theorem keyRelease_cfg (s : State) (k : Key) : (s.keyRelease k).cfg = s.cfg := by unfold keyRelease; split <;> rfl
@[simp] theorem keyRelease_i (s : State) (k : Key) : (s.keyRelease k).i = s.i := by unfold keyRelease; split <;> rfl
@[simp] theorem keyRelease_pc (s : State) (k : Key) : (s.keyRelease k).pc = s.pc := by unfold keyRelease; split <;> rfl
@[simp] theorem keyRelease_stk (s : State) (k : Key) : (s.keyRelease k).stk = s.stk := by unfold keyRelease; split <;> rfl
@[simp] theorem keyRelease_dt (s : State) (k : Key) : (s.keyRelease k).dt = s.dt := by unfold keyRelease; split <;> rfl
@[simp] theorem keyRelease_st (s : State) (k : Key) : (s.keyRelease k).st = s.st := by unfold keyRelease; split <;> rfl
@[simp] theorem keyRelease_mem (s : State) (k : Key) : (s.keyRelease k).mem = s.mem := by unfold keyRelease; split <;> rfl
@[simp] theorem keyRelease_wreg (s : State) (k : Key) : (s.keyRelease k).wreg = s.wreg := by unfold keyRelease; split <;> rfl
@[simp] theorem keyRelease_sched (s : State) (k : Key) : (s.keyRelease k).sched = s.sched := by unfold keyRelease; split <;> rfl
@[simp] theorem keyRelease_flt (s : State) (k : Key) : (s.keyRelease k).flt = s.flt := by unfold keyRelease; split <;> rfl
@[simp] theorem keyRelease_fb (s : State) (k : Key) : (s.keyRelease k).fb = s.fb := by unfold keyRelease; split <;> rfl
@[simp] theorem keyRelease_keys (s : State) (k : Key) : (s.keyRelease k).keys = s.keys := by unfold keyRelease; split <;> rfl
@[simp] theorem keyRelease_rndFeed (s : State) (k : Key) : (s.keyRelease k).rndFeed = s.rndFeed := by unfold keyRelease; split <;> rfl
@[simp] theorem keyRelease_draws (s : State) (k : Key) : (s.keyRelease k).draws = s.draws := by unfold keyRelease; split <;> rfl
@[simp] theorem keyRelease_pending (s : State) (k : Key) : (s.keyRelease k).pending = s.pending := by unfold keyRelease; split <;> rfl

@[simp] theorem hostLoad_cfg (s : State) (a : Nat) (bs : List Byte) : (s.hostLoad a bs).cfg = s.cfg := by unfold hostLoad; split <;> rfl
@[simp] theorem hostLoad_v (s : State) (a : Nat) (bs : List Byte) : (s.hostLoad a bs).v = s.v := by unfold hostLoad; split <;> rfl
@[simp] theorem hostLoad_i (s : State) (a : Nat) (bs : List Byte) : (s.hostLoad a bs).i = s.i := by unfold hostLoad; split <;> rfl
@[simp] theorem hostLoad_pc (s : State) (a : Nat) (bs : List Byte) : (s.hostLoad a bs).pc = s.pc := by unfold hostLoad; split <;> rfl
@[simp] theorem hostLoad_stk (s : State) (a : Nat) (bs : List Byte) : (s.hostLoad a bs).stk = s.stk := by unfold hostLoad; split <;> rfl
@[simp] theorem hostLoad_dt (s : State) (a : Nat) (bs : List Byte) : (s.hostLoad a bs).dt = s.dt := by unfold hostLoad; split <;> rfl
@[simp] theorem hostLoad_st (s : State) (a : Nat) (bs : List Byte) : (s.hostLoad a bs).st = s.st := by unfold hostLoad; split <;> rfl
@[simp] theorem hostLoad_wait (s : State) (a : Nat) (bs : List Byte) : (s.hostLoad a bs).wait = s.wait := by unfold hostLoad; split <;> rfl
@[simp] theorem hostLoad_wreg (s : State) (a : Nat) (bs : List Byte) : (s.hostLoad a bs).wreg = s.wreg := by unfold hostLoad; split <;> rfl
@[simp] theorem hostLoad_sched (s : State) (a : Nat) (bs : List Byte) : (s.hostLoad a bs).sched = s.sched := by unfold hostLoad; split <;> rfl
@[simp] theorem hostLoad_flt (s : State) (a : Nat) (bs : List Byte) : (s.hostLoad a bs).flt = s.flt := by unfold hostLoad; split <;> rfl
@[simp] theorem hostLoad_fb (s : State) (a : Nat) (bs : List Byte) : (s.hostLoad a bs).fb = s.fb := by unfold hostLoad; split <;> rfl
@[simp] theorem hostLoad_keys (s : State) (a : Nat) (bs : List Byte) : (s.hostLoad a bs).keys = s.keys := by unfold hostLoad; split <;> rfl
@[simp] theorem hostLoad_rndFeed (s : State) (a : Nat) (bs : List Byte) : (s.hostLoad a bs).rndFeed = s.rndFeed := by unfold hostLoad; split <;> rfl
@[simp] theorem hostLoad_draws (s : State) (a : Nat) (bs : List Byte) : (s.hostLoad a bs).draws = s.draws := by unfold hostLoad; split <;> rfl
@[simp] theorem hostLoad_pending (s : State) (a : Nat) (bs : List Byte) : (s.hostLoad a bs).pending = s.pending := by unfold hostLoad; split <;> rfl

@[simp] theorem hostLoadFont_cfg (s : State) (a : Nat) (bs : List Byte) : (s.hostLoadFont a bs).cfg = s.cfg := hostLoad_cfg s a bs
@[simp] theorem hostLoadFont_v (s : State) (a : Nat) (bs : List Byte) : (s.hostLoadFont a bs).v = s.v := hostLoad_v s a bs
@[simp] theorem hostLoadFont_i (s : State) (a : Nat) (bs : List Byte) : (s.hostLoadFont a bs).i = s.i := hostLoad_i s a bs
@[simp] theorem hostLoadFont_pc (s : State) (a : Nat) (bs : List Byte) : (s.hostLoadFont a bs).pc = s.pc := hostLoad_pc s a bs
@[simp] theorem hostLoadFont_stk (s : State) (a : Nat) (bs : List Byte) : (s.hostLoadFont a bs).stk = s.stk := hostLoad_stk s a bs
@[simp] theorem hostLoadFont_dt (s : State) (a : Nat) (bs : List Byte) : (s.hostLoadFont a bs).dt = s.dt := hostLoad_dt s a bs
@[simp] theorem hostLoadFont_st (s : State) (a : Nat) (bs : List Byte) : (s.hostLoadFont a bs).st = s.st := hostLoad_st s a bs
@[simp] theorem hostLoadFont_wait (s : State) (a : Nat) (bs : List Byte) : (s.hostLoadFont a bs).wait = s.wait := hostLoad_wait s a bs
@[simp] theorem hostLoadFont_wreg (s : State) (a : Nat) (bs : List Byte) : (s.hostLoadFont a bs).wreg = s.wreg := hostLoad_wreg s a bs
@[simp] theorem hostLoadFont_sched (s : State) (a : Nat) (bs : List Byte) : (s.hostLoadFont a bs).sched = s.sched := hostLoad_sched s a bs
@[simp] theorem hostLoadFont_flt (s : State) (a : Nat) (bs : List Byte) : (s.hostLoadFont a bs).flt = s.flt := hostLoad_flt s a bs
@[simp] theorem hostLoadFont_fb (s : State) (a : Nat) (bs : List Byte) : (s.hostLoadFont a bs).fb = s.fb := hostLoad_fb s a bs
@[simp] theorem hostLoadFont_keys (s : State) (a : Nat) (bs : List Byte) : (s.hostLoadFont a bs).keys = s.keys := hostLoad_keys s a bs
@[simp] theorem hostLoadFont_rndFeed (s : State) (a : Nat) (bs : List Byte) : (s.hostLoadFont a bs).rndFeed = s.rndFeed := hostLoad_rndFeed s a bs
@[simp] theorem hostLoadFont_draws (s : State) (a : Nat) (bs : List Byte) : (s.hostLoadFont a bs).draws = s.draws := hostLoad_draws s a bs
@[simp] theorem hostLoadFont_pending (s : State) (a : Nat) (bs : List Byte) : (s.hostLoadFont a bs).pending = s.pending := hostLoad_pending s a bs

@[simp] theorem hostStart_cfg (s : State) : s.hostStart.cfg = s.cfg := by unfold hostStart; split <;> rfl
@[simp] theorem hostStart_v (s : State) : s.hostStart.v = s.v := by unfold hostStart; split <;> rfl
@[simp] theorem hostStart_i (s : State) : s.hostStart.i = s.i := by unfold hostStart; split <;> rfl
@[simp] theorem hostStart_pc (s : State) : s.hostStart.pc = s.pc := by unfold hostStart; split <;> rfl
@[simp] theorem hostStart_stk (s : State) : s.hostStart.stk = s.stk := by unfold hostStart; split <;> rfl
@[simp] theorem hostStart_dt (s : State) : s.hostStart.dt = s.dt := by unfold hostStart; split <;> rfl
@[simp] theorem hostStart_st (s : State) : s.hostStart.st = s.st := by unfold hostStart; split <;> rfl
@[simp] theorem hostStart_mem (s : State) : s.hostStart.mem = s.mem := by unfold hostStart; split <;> rfl
@[simp] theorem hostStart_wait (s : State) : s.hostStart.wait = s.wait := by unfold hostStart; split <;> rfl
@[simp] theorem hostStart_wreg (s : State) : s.hostStart.wreg = s.wreg := by unfold hostStart; split <;> rfl
@[simp] theorem hostStart_flt (s : State) : s.hostStart.flt = s.flt := by unfold hostStart; split <;> rfl
@[simp] theorem hostStart_fb (s : State) : s.hostStart.fb = s.fb := by unfold hostStart; split <;> rfl
@[simp] theorem hostStart_keys (s : State) : s.hostStart.keys = s.keys := by unfold hostStart; split <;> rfl
@[simp] theorem hostStart_rndFeed (s : State) : s.hostStart.rndFeed = s.rndFeed := by unfold hostStart; split <;> rfl
@[simp] theorem hostStart_draws (s : State) : s.hostStart.draws = s.draws := by unfold hostStart; split <;> rfl
@[simp] theorem hostStart_pending (s : State) : s.hostStart.pending = s.pending := by unfold hostStart; split <;> rfl

@[simp] theorem writeCollision_cfg (s : State) (c : Bool) : (s.writeCollision c).cfg = s.cfg := by unfold writeCollision; split <;> rfl
@[simp] theorem writeCollision_i (s : State) (c : Bool) : (s.writeCollision c).i = s.i := by unfold writeCollision; split <;> rfl
@[simp] theorem writeCollision_pc (s : State) (c : Bool) : (s.writeCollision c).pc = s.pc := by unfold writeCollision; split <;> rfl
@[simp] theorem writeCollision_stk (s : State) (c : Bool) : (s.writeCollision c).stk = s.stk := by unfold writeCollision; split <;> rfl
@[simp] theorem writeCollision_dt (s : State) (c : Bool) : (s.writeCollision c).dt = s.dt := by unfold writeCollision; split <;> rfl
@[simp] theorem writeCollision_st (s : State) (c : Bool) : (s.writeCollision c).st = s.st := by unfold writeCollision; split <;> rfl
@[simp] theorem writeCollision_mem (s : State) (c : Bool) : (s.writeCollision c).mem = s.mem := by unfold writeCollision; split <;> rfl
@[simp] theorem writeCollision_wait (s : State) (c : Bool) : (s.writeCollision c).wait = s.wait := by unfold writeCollision; split <;> rfl
@[simp] theorem writeCollision_wreg (s : State) (c : Bool) : (s.writeCollision c).wreg = s.wreg := by unfold writeCollision; split <;> rfl
@[simp] theorem writeCollision_sched (s : State) (c : Bool) : (s.writeCollision c).sched = s.sched := by unfold writeCollision; split <;> rfl
@[simp] theorem writeCollision_flt (s : State) (c : Bool) : (s.writeCollision c).flt = s.flt := by unfold writeCollision; split <;> rfl
@[simp] theorem writeCollision_fb (s : State) (c : Bool) : (s.writeCollision c).fb = s.fb := by unfold writeCollision; split <;> rfl
@[simp] theorem writeCollision_keys (s : State) (c : Bool) : (s.writeCollision c).keys = s.keys := by unfold writeCollision; split <;> rfl
@[simp] theorem writeCollision_rndFeed (s : State) (c : Bool) : (s.writeCollision c).rndFeed = s.rndFeed := by unfold writeCollision; split <;> rfl
@[simp] theorem writeCollision_draws (s : State) (c : Bool) : (s.writeCollision c).draws = s.draws := by unfold writeCollision; split <;> rfl
@[simp] theorem writeCollision_pending (s : State) (c : Bool) : (s.writeCollision c).pending = s.pending := by unfold writeCollision; split <;> rfl

@[simp] theorem resultThenFlag_cfg (s : State) (x : Reg) (r g : Byte) : (s.resultThenFlag x r g).cfg = s.cfg := rfl
@[simp] theorem resultThenFlag_i (s : State) (x : Reg) (r g : Byte) : (s.resultThenFlag x r g).i = s.i := rfl
@[simp] theorem resultThenFlag_stk (s : State) (x : Reg) (r g : Byte) : (s.resultThenFlag x r g).stk = s.stk := rfl
@[simp] theorem resultThenFlag_dt (s : State) (x : Reg) (r g : Byte) : (s.resultThenFlag x r g).dt = s.dt := rfl
@[simp] theorem resultThenFlag_st (s : State) (x : Reg) (r g : Byte) : (s.resultThenFlag x r g).st = s.st := rfl
@[simp] theorem resultThenFlag_mem (s : State) (x : Reg) (r g : Byte) : (s.resultThenFlag x r g).mem = s.mem := rfl
@[simp] theorem resultThenFlag_wait (s : State) (x : Reg) (r g : Byte) : (s.resultThenFlag x r g).wait = s.wait := rfl
@[simp] theorem resultThenFlag_wreg (s : State) (x : Reg) (r g : Byte) : (s.resultThenFlag x r g).wreg = s.wreg := rfl
@[simp] theorem resultThenFlag_sched (s : State) (x : Reg) (r g : Byte) : (s.resultThenFlag x r g).sched = s.sched := rfl
@[simp] theorem resultThenFlag_flt (s : State) (x : Reg) (r g : Byte) : (s.resultThenFlag x r g).flt = s.flt := rfl
@[simp] theorem resultThenFlag_fb (s : State) (x : Reg) (r g : Byte) : (s.resultThenFlag x r g).fb = s.fb := rfl
@[simp] theorem resultThenFlag_keys (s : State) (x : Reg) (r g : Byte) : (s.resultThenFlag x r g).keys = s.keys := rfl
@[simp] theorem resultThenFlag_rndFeed (s : State) (x : Reg) (r g : Byte) : (s.resultThenFlag x r g).rndFeed = s.rndFeed := rfl
@[simp] theorem resultThenFlag_draws (s : State) (x : Reg) (r g : Byte) : (s.resultThenFlag x r g).draws = s.draws := rfl
@[simp] theorem resultThenFlag_pending (s : State) (x : Reg) (r g : Byte) : (s.resultThenFlag x r g).pending = s.pending := rfl
@[simp] theorem resultThenFlag_pc (s : State) (x : Reg) (r g : Byte) : (s.resultThenFlag x r g).pc = s.npc := rfl

@[simp] theorem logicResult_cfg (s : State) (x : Reg) (r : Byte) : (s.logicResult x r).cfg = s.cfg := by unfold logicResult; split <;> rfl
@[simp] theorem logicResult_i (s : State) (x : Reg) (r : Byte) : (s.logicResult x r).i = s.i := by unfold logicResult; split <;> rfl
@[simp] theorem logicResult_stk (s : State) (x : Reg) (r : Byte) : (s.logicResult x r).stk = s.stk := by unfold logicResult; split <;> rfl
@[simp] theorem logicResult_dt (s : State) (x : Reg) (r : Byte) : (s.logicResult x r).dt = s.dt := by unfold logicResult; split <;> rfl
@[simp] theorem logicResult_st (s : State) (x : Reg) (r : Byte) : (s.logicResult x r).st = s.st := by unfold logicResult; split <;> rfl
@[simp] theorem logicResult_mem (s : State) (x : Reg) (r : Byte) : (s.logicResult x r).mem = s.mem := by unfold logicResult; split <;> rfl
@[simp] theorem logicResult_wait (s : State) (x : Reg) (r : Byte) : (s.logicResult x r).wait = s.wait := by unfold logicResult; split <;> rfl
@[simp] theorem logicResult_wreg (s : State) (x : Reg) (r : Byte) : (s.logicResult x r).wreg = s.wreg := by unfold logicResult; split <;> rfl
@[simp] theorem logicResult_sched (s : State) (x : Reg) (r : Byte) : (s.logicResult x r).sched = s.sched := by unfold logicResult; split <;> rfl
@[simp] theorem logicResult_flt (s : State) (x : Reg) (r : Byte) : (s.logicResult x r).flt = s.flt := by unfold logicResult; split <;> rfl
@[simp] theorem logicResult_fb (s : State) (x : Reg) (r : Byte) : (s.logicResult x r).fb = s.fb := by unfold logicResult; split <;> rfl
@[simp] theorem logicResult_keys (s : State) (x : Reg) (r : Byte) : (s.logicResult x r).keys = s.keys := by unfold logicResult; split <;> rfl
@[simp] theorem logicResult_rndFeed (s : State) (x : Reg) (r : Byte) : (s.logicResult x r).rndFeed = s.rndFeed := by unfold logicResult; split <;> rfl
@[simp] theorem logicResult_draws (s : State) (x : Reg) (r : Byte) : (s.logicResult x r).draws = s.draws := by unfold logicResult; split <;> rfl
@[simp] theorem logicResult_pending (s : State) (x : Reg) (r : Byte) : (s.logicResult x r).pending = s.pending := by unfold logicResult; split <;> rfl
@[simp] theorem logicResult_pc (s : State) (x : Reg) (r : Byte) : (s.logicResult x r).pc = s.npc := by unfold logicResult; split <;> rfl

/-! ### Registers -/

/-- Reading a register after writing one. -/
@[simp] theorem reg_setReg (s : State) (r q : Reg) (b : Byte) :
    (s.setReg r b).reg q = if q = r then b else s.reg q := by
  simp only [reg, setReg, Vector.getElem_set, eq_comm (a := r.val), Fin.val_inj]

@[simp] theorem reg_setPc (s : State) (w : Word) (q : Reg) : (s.setPc w).reg q = s.reg q := rfl
@[simp] theorem reg_setI (s : State) (w : Word) (q : Reg) : (s.setI w).reg q = s.reg q := rfl
@[simp] theorem reg_advance (s : State) (q : Reg) : s.advance.reg q = s.reg q := rfl
@[simp] theorem reg_skipIf (s : State) (c : Bool) (q : Reg) : (s.skipIf c).reg q = s.reg q := rfl
@[simp] theorem reg_setStk (s : State) (ws : List Word) (q : Reg) : (s.setStk ws).reg q = s.reg q := rfl
@[simp] theorem reg_setPending (s : State) (es : List Event) (q : Reg) : (s.setPending es).reg q = s.reg q := rfl
@[simp] theorem reg_setDt (s : State) (b : Byte) (q : Reg) : (s.setDt b).reg q = s.reg q := rfl
@[simp] theorem reg_setSt (s : State) (b : Byte) (q : Reg) : (s.setSt b).reg q = s.reg q := rfl
@[simp] theorem reg_store (s : State) (a : Nat) (bs : List Byte) (q : Reg) : (s.store a bs).reg q = s.reg q := rfl
@[simp] theorem reg_tickTimers (s : State) (q : Reg) : s.tickTimers.reg q = s.reg q := rfl
@[simp] theorem reg_awaitKey (s : State) (r q : Reg) : (s.awaitKey r).reg q = s.reg q := rfl
@[simp] theorem reg_displayClear (s : State) (q : Reg) : s.displayClear.reg q = s.reg q := rfl
@[simp] theorem reg_displayToggle (s : State) (ps : List Pixel) (q : Reg) : (s.displayToggle ps).reg q = s.reg q := rfl

@[simp] theorem reg_afterDraw (s : State) (q : Reg) : s.afterDraw.reg q = s.reg q := by
  unfold afterDraw; split <;> rfl

/-- `FX65` loads the registers up to its last one and leaves the others (R223). -/
@[simp] theorem reg_loadRegs (s : State) (a : Nat) (x q : Reg) :
    (s.loadRegs a x).reg q = if q ≤ x then s.mem.read (a + q.val) else s.reg q := by
  simp only [reg, loadRegs_v, Vector.getElem_ofFn, Fin.le_def]

/-- The flag write is last and wins (R35). -/
@[simp] theorem reg_resultThenFlag (s : State) (x q : Reg) (r g : Byte) :
    (s.resultThenFlag x r g).reg q = if q = Reg.vf then g else if q = x then r else s.reg q := by
  simp only [resultThenFlag, reg_advance, reg_setReg]

/-- A logic result, with and without the quirk (R171). -/
@[simp] theorem reg_logicResult (s : State) (x q : Reg) (r : Byte) :
    (s.logicResult x r).reg q =
      if s.cfg.quirkLogicVfReset = true ∧ q = Reg.vf then 0 else if q = x then r else s.reg q := by
  unfold logicResult
  split <;> simp [*]

/-- The collision goes to `VF` under the quirk alone (R134). -/
@[simp] theorem reg_writeCollision (s : State) (c : Bool) (q : Reg) :
    (s.writeCollision c).reg q =
      if s.cfg.quirkDrawVf = true ∧ q = Reg.vf then collisionFlag c else s.reg q := by
  unfold writeCollision
  split <;> simp [*]

/-- Two register files that read alike are the same. -/
theorem v_ext {s t : State} (h : ∀ q, s.reg q = t.reg q) : s.v = t.v :=
  Vector.ext fun k hk => h ⟨k, hk⟩

end Sys2Proof.Machine.State
end

