-- ==== Sys2Proof/Laws/Ops.lean ====
section
/-! SUPPORT. For each shared operation, everything it can do, said once: the stack, taking a fault, the bounds check, the
random source, the timers. -/

namespace Sys2Proof.Machine

/-! ### The bounds check (R72) -/

theorem accessFails_iff (size a n : Nat) : accessFails size a n = true ↔ 0 < n ∧ size ≤ a + n - 1 := by
  simp [accessFails]

theorem dataFails_iff (s : State) (n : Nat) : s.dataFails n = true ↔ 0 < n ∧ s.cfg.memSize ≤ s.i.toNat + n - 1 :=
  accessFails_iff _ _ _

theorem dataFails_eq_false (s : State) (n : Nat) : s.dataFails n = false ↔ (n = 0 ∨ s.i.toNat + n ≤ s.cfg.memSize) := by
  rw [← Bool.not_eq_true, dataFails_iff]; omega

/-! ### The call stack (R42, R43) -/

/-- `Push` fails exactly on a full stack. -/
theorem push_eq_none (s : State) (w : Word) : s.push w = none ↔ s.sp = s.cfg.stackDepth := by
  unfold State.push; split <;> simp [*]

/-- `Push` on a stack that is not full appends the value. -/
theorem push_of_room {s : State} (h : s.sp ≠ s.cfg.stackDepth) (w : Word) :
    s.push w = some (s.setStk (s.stk ++ [w])) := if_neg h

/-- All a successful `Push` can do. -/
theorem push_cases {s t : State} {w : Word} (h : s.push w = some t) :
    s.sp ≠ s.cfg.stackDepth ∧ t = s.setStk (s.stk ++ [w]) := by
  unfold State.push at h
  split at h
  · cases h
  · exact ⟨‹_›, (Option.some.inj h).symm⟩

theorem sp_eq_zero (s : State) : s.sp = 0 ↔ s.stk = [] := List.length_eq_zero_iff

/-- `Pop` fails exactly on the empty stack. -/
theorem pop_eq_none (s : State) : s.pop = none ↔ s.sp = 0 := by
  unfold State.pop
  split
  · rename_i h
    simp [sp_eq_zero, List.getLast?_eq_none_iff.1 h]
  · rename_i w h
    simp only [reduceCtorEq, false_iff, sp_eq_zero]
    intro e
    simp [e] at h

/-- `Pop` on a stack whose newest entry is `w`. -/
theorem pop_concat {s : State} {rest : List Word} {w : Word} (h : s.stk = rest ++ [w]) :
    s.pop = some (w, s.setStk rest) := by
  simp [State.pop, h]

/-- All a successful `Pop` can do. -/
theorem pop_cases {s t : State} {w : Word} (h : s.pop = some (w, t)) :
    s.stk = t.stk ++ [w] ∧ t = s.setStk s.stk.dropLast := by
  unfold State.pop at h
  split at h
  · cases h
  · rename_i x hx
    cases h
    exact ⟨(List.dropLast_append_getLast? w hx).symm, rfl⟩

/-! ### Faults (R236) -/

/-- Taking a fault is always a next state. -/
theorem raise_eq (s : State) (c : FaultCause) (k : Nat) :
    s.raise c k = .next { s with flt := some ⟨c, s.pc, k⟩, sched := .stopped } := rfl

theorem raiseOutOfBounds_eq (s : State) (a : Nat) :
    s.raiseOutOfBounds a = s.raise .outOfBoundsAccess (max a s.cfg.memSize) := rfl

/-! ### Multi-cell transfers (R222) -/

@[simp] theorem regsUpTo_length (s : State) (x : Reg) : (s.regsUpTo x).length = x.val + 1 := by
  simp [State.regsUpTo]

theorem regsUpTo_getD (s : State) (x r : Reg) (h : r ≤ x) : (s.regsUpTo x).getD r.val 0 = s.reg r := by
  have : r.val < x.val + 1 := Nat.lt_succ_of_le h
  simp [State.regsUpTo, State.reg, List.getD_eq_getElem?_getD, this]

/-! ### The program counter (R38) -/

/-- A skip commits `PC + 4` when taken and `PC + 2` when not, and changes nothing else. -/
theorem skipIf_eq (s : State) (taken : Bool) :
    s.skipIf taken = { s with pc := if taken = true then s.pc + 4 else s.pc + 2 } := by
  have h : s.pc + 2 + 2 = s.pc + 4 := by rw [BitVec.add_assoc]; rfl
  simp only [State.skipIf, State.setPc, State.npc, h]

/-! ### The random source (R163) -/

@[simp] theorem randomByte_of_feed {s : State} {b : Byte} {rest : List Byte} (h : s.rndFeed = b :: rest) :
    s.randomByte = b := by simp [State.randomByte, h]

@[simp] theorem randomByte_free {s : State} (h : s.rndFeed = []) : s.randomByte = Config.freeRandomByte s.draws := by
  simp [State.randomByte, h]

theorem afterDraw_of_feed {s : State} {b : Byte} {rest : List Byte} (h : s.rndFeed = b :: rest) :
    s.afterDraw = { s with rndFeed := rest } := by simp [State.afterDraw, h]

theorem afterDraw_free {s : State} (h : s.rndFeed = []) : s.afterDraw = { s with draws := s.draws + 1 } := by
  simp [State.afterDraw, h]

/-! ### Timers (R213) -/

theorem countDown_toNat (b : Byte) : (countDown b).toNat = b.toNat - 1 := by
  unfold countDown
  split
  · rename_i h
    simp [h]
  · rename_i h
    have hb : b.toNat ≠ 0 := fun e => h (BitVec.eq_of_toNat_eq e)
    have := b.isLt
    rw [BitVec.toNat_sub]
    simp only [BitVec.ofNat_eq_ofNat, BitVec.toNat_ofNat]
    omega

/-! ### Flags (R34) -/

@[simp] theorem flagByte_toNat (b : Bool) : (flagByte b).toNat = if b then 1 else 0 := by cases b <;> rfl

end Sys2Proof.Machine
end

