-- ==== Sys2Proof/Laws/PerInstr.lean ====
section
/-! SUPPORT. Facts about every instruction as syntax, one lemma per constructor. -/

namespace Sys2Proof.Laws.MatchesOwnRow

/-- R105: the word of a well-formed instruction matches the instruction's own row of the opcode map: `w AND mask = match`. -/
def Statement (i : Instr) : Prop :=
  i.wf = true → ∃ r, i.row? = some r ∧ r.matchesWord (encode i) = true

/-- Mask `0xFFFF`: the whole word. -/
theorem matches_FFFF {w : Word} {m : String} {p : Word} (h : w = p) :
    (OpcodeRow.mk m p 0xFFFF).matchesWord w = true := by
  simp only [OpcodeRow.matchesWord, beq_iff_eq, h]
  exact BitVec.and_allOnes

/-- Mask `0xF000`: the class decides. -/
theorem matches_F000 {w : Word} {m : String} {p : Word} {c : Nat} (hp : p.toNat = c * 4096) (h : w.toNat / 4096 = c) :
    (OpcodeRow.mk m p 0xF000).matchesWord w = true := by
  simp only [OpcodeRow.matchesWord, beq_iff_eq]
  exact BitVec.eq_of_toNat_eq (by rw [and_F000_toNat, hp, h])

/-- Mask `0xF00F`: the class and `N` decide. -/
theorem matches_F00F {w : Word} {m : String} {p : Word} {c n : Nat} (hp : p.toNat = c * 4096 + n)
    (h : w.toNat / 4096 = c ∧ w.toNat % 16 = n) : (OpcodeRow.mk m p 0xF00F).matchesWord w = true := by
  simp only [OpcodeRow.matchesWord, beq_iff_eq]
  exact BitVec.eq_of_toNat_eq (by rw [and_F00F_toNat, hp, h.1, h.2])

/-- Mask `0xF0FF`: the class and `NN` decide. -/
theorem matches_F0FF {w : Word} {m : String} {p : Word} {c n : Nat} (hp : p.toNat = c * 4096 + n)
    (h : w.toNat / 4096 = c ∧ w.toNat % 256 = n) : (OpcodeRow.mk m p 0xF0FF).matchesWord w = true := by
  simp only [OpcodeRow.matchesWord, beq_iff_eq]
  exact BitVec.eq_of_toNat_eq (by rw [and_F0FF_toNat, hp, h.1, h.2])

/-! Each format's words match a row of that format. -/

theorem format_NNN {c : Nat} {nnn p : Word} {m : String} (hc : c < 16) (hp : p.toNat = c * 4096)
    (h : addressFits nnn = true) : (OpcodeRow.mk m p 0xF000).matchesWord (packNNN c nnn) = true := by
  have h' : nnn.toNat < 4096 := of_decide_eq_true h
  refine matches_F000 hp ?_
  rw [packNNN_toNat hc h']; omega

theorem format_XNN {c : Nat} {p : Word} {m : String} (hc : c < 16) (hp : p.toNat = c * 4096) (x : Reg) (nn : Byte) :
    (OpcodeRow.mk m p 0xF000).matchesWord (packXNN c x nn) = true := by
  refine matches_F000 hp ?_
  rw [packXNN_toNat hc]
  have := x.isLt
  have := nn.isLt
  omega

theorem format_XY {c n : Nat} {p : Word} {m : String} (hc : c < 16) (hn : n < 16) (hp : p.toNat = c * 4096 + n)
    (x y : Reg) : (OpcodeRow.mk m p 0xF00F).matchesWord (packXY c x y n) = true := by
  refine matches_F00F hp ?_
  rw [packXY_toNat hc x y hn]
  have := x.isLt
  have := y.isLt
  omega

theorem format_X {c n : Nat} {p : Word} {m : String} (hc : c < 16) (hn : n < 256) (hp : p.toNat = c * 4096 + n)
    (x : Reg) : (OpcodeRow.mk m p 0xF0FF).matchesWord (packX c x n) = true := by
  refine matches_F0FF hp ?_
  rw [packX_toNat hc x hn]
  have := x.isLt
  omega

theorem cls : Statement (.cls) := fun _ => ⟨_, rfl, matches_FFFF rfl⟩

theorem ret : Statement (.ret) := fun _ => ⟨_, rfl, matches_FFFF rfl⟩

theorem jp (nnn : Word) : Statement (.jp nnn) := fun h => ⟨_, rfl, format_NNN (by decide) rfl h⟩

theorem call (nnn : Word) : Statement (.call nnn) := fun h => ⟨_, rfl, format_NNN (by decide) rfl h⟩

theorem seVxNn (x : Reg) (nn : Byte) : Statement (.seVxNn x nn) := fun _ => ⟨_, rfl, format_XNN (by decide) rfl x nn⟩

theorem sneVxNn (x : Reg) (nn : Byte) : Statement (.sneVxNn x nn) := fun _ => ⟨_, rfl, format_XNN (by decide) rfl x nn⟩

theorem seVxVy (x y : Reg) : Statement (.seVxVy x y) := fun _ => ⟨_, rfl, format_XY (by decide) (by decide) rfl x y⟩

theorem ldVxNn (x : Reg) (nn : Byte) : Statement (.ldVxNn x nn) := fun _ => ⟨_, rfl, format_XNN (by decide) rfl x nn⟩

theorem addVxNn (x : Reg) (nn : Byte) : Statement (.addVxNn x nn) := fun _ => ⟨_, rfl, format_XNN (by decide) rfl x nn⟩

theorem ldVxVy (x y : Reg) : Statement (.ldVxVy x y) := fun _ => ⟨_, rfl, format_XY (by decide) (by decide) rfl x y⟩

theorem orVxVy (x y : Reg) : Statement (.orVxVy x y) := fun _ => ⟨_, rfl, format_XY (by decide) (by decide) rfl x y⟩

theorem andVxVy (x y : Reg) : Statement (.andVxVy x y) := fun _ => ⟨_, rfl, format_XY (by decide) (by decide) rfl x y⟩

theorem xorVxVy (x y : Reg) : Statement (.xorVxVy x y) := fun _ => ⟨_, rfl, format_XY (by decide) (by decide) rfl x y⟩

theorem addVxVy (x y : Reg) : Statement (.addVxVy x y) := fun _ => ⟨_, rfl, format_XY (by decide) (by decide) rfl x y⟩

theorem subVxVy (x y : Reg) : Statement (.subVxVy x y) := fun _ => ⟨_, rfl, format_XY (by decide) (by decide) rfl x y⟩

theorem shrVxVy (x y : Reg) : Statement (.shrVxVy x y) := fun _ => ⟨_, rfl, format_XY (by decide) (by decide) rfl x y⟩

theorem subnVxVy (x y : Reg) : Statement (.subnVxVy x y) := fun _ => ⟨_, rfl, format_XY (by decide) (by decide) rfl x y⟩

theorem shlVxVy (x y : Reg) : Statement (.shlVxVy x y) := fun _ => ⟨_, rfl, format_XY (by decide) (by decide) rfl x y⟩

theorem sneVxVy (x y : Reg) : Statement (.sneVxVy x y) := fun _ => ⟨_, rfl, format_XY (by decide) (by decide) rfl x y⟩

theorem ldINnn (nnn : Word) : Statement (.ldINnn nnn) := fun h => ⟨_, rfl, format_NNN (by decide) rfl h⟩

theorem jpV0Nnn (nnn : Word) : Statement (.jpV0Nnn nnn) := fun h => ⟨_, rfl, format_NNN (by decide) rfl h⟩

theorem rndVxNn (x : Reg) (nn : Byte) : Statement (.rndVxNn x nn) := fun _ => ⟨_, rfl, format_XNN (by decide) rfl x nn⟩

theorem drwVxVyN (x y : Reg) (n : Nat) : Statement (.drwVxVyN x y n) := fun h => by
  have h' : n < 16 := of_decide_eq_true h
  refine ⟨_, rfl, matches_F000 (c := 0xD) rfl ?_⟩
  rw [encode, pack_toNat (by decide) x.isLt y.isLt h']
  have := x.isLt
  have := y.isLt
  omega

theorem skpVx (x : Reg) : Statement (.skpVx x) := fun _ => ⟨_, rfl, format_X (by decide) (by decide) rfl x⟩

theorem sknpVx (x : Reg) : Statement (.sknpVx x) := fun _ => ⟨_, rfl, format_X (by decide) (by decide) rfl x⟩

theorem ldVxDt (x : Reg) : Statement (.ldVxDt x) := fun _ => ⟨_, rfl, format_X (by decide) (by decide) rfl x⟩

theorem ldVxK (x : Reg) : Statement (.ldVxK x) := fun _ => ⟨_, rfl, format_X (by decide) (by decide) rfl x⟩

theorem ldDtVx (x : Reg) : Statement (.ldDtVx x) := fun _ => ⟨_, rfl, format_X (by decide) (by decide) rfl x⟩

theorem ldStVx (x : Reg) : Statement (.ldStVx x) := fun _ => ⟨_, rfl, format_X (by decide) (by decide) rfl x⟩

theorem addIVx (x : Reg) : Statement (.addIVx x) := fun _ => ⟨_, rfl, format_X (by decide) (by decide) rfl x⟩

theorem ldFVx (x : Reg) : Statement (.ldFVx x) := fun _ => ⟨_, rfl, format_X (by decide) (by decide) rfl x⟩

theorem ldBVx (x : Reg) : Statement (.ldBVx x) := fun _ => ⟨_, rfl, format_X (by decide) (by decide) rfl x⟩

theorem ldMemIVx (x : Reg) : Statement (.ldMemIVx x) := fun _ => ⟨_, rfl, format_X (by decide) (by decide) rfl x⟩

theorem ldVxMemI (x : Reg) : Statement (.ldVxMemI x) := fun _ => ⟨_, rfl, format_X (by decide) (by decide) rfl x⟩

end Sys2Proof.Laws.MatchesOwnRow
end

