-- ==== Sys2Proof/Laws/Step.lean ====
section
/-! SUPPORT. What one step can do, said once: the cases of a `Cycle` and of an event, as equations that later proofs cite
instead of unfolding `step`. -/

namespace Sys2Proof.Machine

/-! ### `Cycle` (R100, R101, R238) -/

theorem held_iff (s : State) : s.held = true ↔ s.wait = true ∨ s.flt.isSome = true := by simp [State.held]

theorem held_eq_false (s : State) : s.held = false ↔ s.wait = false ∧ s.flt = none := by
  simp [State.held]

/-- The fetch reads the word at `PC` when both its cells are inside memory. -/
theorem fetch_of_fits {s : State} (h : s.fetchFits) : s.fetch = some s.wordAtPc := by
  have : accessFails s.cfg.memSize s.pc.toNat 2 = false := by
    rw [← Bool.not_eq_true, accessFails_iff]; omega
  simp [State.fetch, this]

theorem fetch_of_not_fits {s : State} (h : ¬ s.fetchFits) : s.fetch = none := by
  have : accessFails s.cfg.memSize s.pc.toNat 2 = true := by rw [accessFails_iff]; omega
  simp [State.fetch, this]

/-- R101: a held `Cycle` does nothing. -/
theorem cycle_of_held {s : State} (h : s.held = true) : cycle s = .next s := by simp [cycle, h]

/-- R100: a fetch outside memory faults. -/
theorem cycle_of_not_fits {s : State} (h : s.held = false) (hf : ¬ s.fetchFits) :
    cycle s = s.raiseOutOfBounds s.pc.toNat := by simp [cycle, h, fetch_of_not_fits hf]

/-- R100: otherwise the word at `PC` runs. -/
theorem cycle_of_fits {s : State} (h : s.held = false) (hf : s.fetchFits) : cycle s = s.runWord s.wordAtPc := by
  simp [cycle, h, fetch_of_fits hf]

theorem runWord_of_ok {s : State} {w : Word} {i : Instr} (h : decode w = .ok i) : s.runWord w = exec i s := by
  simp [State.runWord, h]

theorem runWord_of_error {s : State} {w : Word} {e : DecodeError} (h : decode w = .error e) :
    s.runWord w = s.raise .invalidInstruction w.toNat := by simp [State.runWord, h]

/-- All a `Cycle` can do. -/
theorem cycle_cases (s : State) :
    (s.held = true ∧ cycle s = .next s) ∨
    (s.held = false ∧ ¬ s.fetchFits ∧ cycle s = s.raiseOutOfBounds s.pc.toNat) ∨
    (s.held = false ∧ s.fetchFits ∧ (∃ e, decode s.wordAtPc = .error e) ∧
      cycle s = s.raise .invalidInstruction s.wordAtPc.toNat) ∨
    (s.held = false ∧ s.fetchFits ∧ ∃ i, decode s.wordAtPc = .ok i ∧ cycle s = exec i s) := by
  cases h : s.held with
  | true => exact .inl ⟨rfl, cycle_of_held h⟩
  | false =>
    by_cases hf : s.fetchFits
    · cases hd : decode s.wordAtPc with
      | error e => exact .inr (.inr (.inl ⟨rfl, hf, ⟨e, rfl⟩, (cycle_of_fits h hf).trans (runWord_of_error hd)⟩))
      | ok i => exact .inr (.inr (.inr ⟨rfl, hf, i, rfl, (cycle_of_fits h hf).trans (runWord_of_ok hd)⟩))
    · exact .inr (.inl ⟨rfl, hf, cycle_of_not_fits h hf⟩)

/-! ### `step` -/

/-- A step takes the first of the coming events. -/
theorem step_of_event {s : State} {e : Event} {rest : List Event} (h : s.pending = e :: rest) :
    step s = deliver e (s.setPending rest) := by simp [step, nextEvent, h]

/-- With no coming event and the core STARTED, a step is a `Cycle`. -/
theorem step_of_started {s : State} (h : s.pending = []) (hs : s.sched = .started) : step s = cycle s := by
  simp [step, nextEvent, h, schedulerCycle, hs]

/-- With no coming event and the core STOPPED, nothing happens. -/
theorem step_of_stopped {s : State} (h : s.pending = []) (hs : s.sched = .stopped) : step s = .next s := by
  simp [step, nextEvent, h, schedulerCycle, hs]

theorem schedulerCycle_started {s : State} (h : s.sched = .started) : schedulerCycle s = cycle s := by
  simp [schedulerCycle, h]

theorem schedulerCycle_stopped {s : State} (h : s.sched = .stopped) : schedulerCycle s = .next s := by
  simp [schedulerCycle, h]

/-- All a step can do: nothing, a `Cycle` (of the scheduler or of the host's `Step`), or an event that is always a next
state. -/
theorem step_cases (s : State) :
    (s.pending = [] ∧ s.sched = .stopped ∧ step s = .next s) ∨
    (s.pending = [] ∧ s.sched = .started ∧ step s = cycle s) ∨
    (∃ e rest, s.pending = e :: rest ∧ step s = deliver e (s.setPending rest)) := by
  cases hp : s.pending with
  | nil =>
    cases hs : s.sched with
    | stopped => exact .inl ⟨rfl, rfl, step_of_stopped hp hs⟩
    | started => exact .inr (.inl ⟨rfl, rfl, step_of_started hp hs⟩)
  | cons e rest => exact .inr (.inr ⟨e, rest, rfl, step_of_event hp⟩)

/-! ### Runs of the machine -/

@[simp] theorem run_zero (s : State) : Sys2Proof.core.run 0 s = .next s := rfl

/-- A run of any machine whose first step answers a next state goes on from there. -/
theorem core_run_succ (M : Host.Core) {s t : M.State} (h : M.step s = .next t) (n : Nat) :
    M.run (n + 1) s = M.run n t := by
  rw [Host.Core.run, h]

theorem run_succ_of_next {s t : State} (h : step s = .next t) (n : Nat) :
    Sys2Proof.core.run (n + 1) s = Sys2Proof.core.run n t :=
  core_run_succ Sys2Proof.core h n

/-! ### Placing a word -/

/-- In a legal configuration the fetch of a placed word is inside memory. -/
theorem placeWord_fetchFits {s : State} (h : s.cfg.legal) (w : Word) : (s.placeWord w).fetchFits := by
  have := h.1
  show s.fetchablePc.toNat + 1 < s.cfg.memSize
  unfold State.fetchablePc
  split
  · assumption
  · show 0 + 1 < s.cfg.memSize
    omega

/-- The word at `PC` after placing a word is that word. -/
theorem placeWord_wordAtPc {s : State} (h : s.mem.wf) (w : Word) : (s.placeWord w).wordAtPc = w := by
  have hr : ∀ k, k < 2 → (s.mem.writeBytes s.fetchablePc.toNat (bytesOfWord w)).read (s.fetchablePc.toNat + k) =
      (bytesOfWord w).getD k 0 := fun k hk => by
    rw [Memory.read_writeBytes h, if_pos ⟨by omega, by simp only [bytesOfWord, List.length_cons, List.length_nil]; omega⟩,
      Nat.add_sub_cancel_left]
  show wordOfBytes ((s.mem.writeBytes _ (bytesOfWord w)).read (s.fetchablePc.toNat + 0)) ((s.mem.writeBytes _ (bytesOfWord w)).read (s.fetchablePc.toNat + 1)) = w
  rw [hr 0 (by omega), hr 1 (by omega)]
  exact wordOfBytes_bytes w

/-- The very next step runs a placed instruction. -/
theorem step_placeWord {s : State} {w : Word} {i : Instr} (hc : s.cfg.legal) (hm : s.mem.wf) (h : decode w = .ok i) :
    step (s.placeWord w) = exec i (s.placeWord w) := by
  rw [step_of_started rfl rfl, cycle_of_fits rfl (placeWord_fetchFits hc w), placeWord_wordAtPc hm, runWord_of_ok h]

end Sys2Proof.Machine
end

