-- ==== Sys2Proof/Machine/Ports.lean ====
section
/-! DEFINITION. The output ports of the block as functions of the state and of the instruction a `Cycle` executes
(60_exceptions.md R258). No port has an address and no rule of the CORE reads one. -/

namespace Sys2Proof.Machine

/-- R230: the numeric cause codes. -/
def FaultCause.code : FaultCause → BitVec 3
  | .invalidInstruction => 1
  | .stackUnderflow => 2
  | .stackOverflow => 3
  | .outOfBoundsAccess => 4

/-- `fault`: cause 3 bits, pc 16 bits, info 17 bits (R258); none while no fault is recorded. -/
def State.faultPort (s : State) : Option (BitVec 3 × Word × BitVec 17) :=
  s.flt.map fun r => (r.cause.code, r.pc, BitVec.ofNat 17 r.info)

/-- `ST` (R212, R258). -/
def State.stPort (s : State) : Byte := s.st

/-- `st_nonzero` (R212, R258). -/
def State.stNonzero (s : State) : Bool := s.st != 0

/-- The instruction the next effective `Cycle` executes, none when it is held back, faults at the fetch or meets an illegal
word. -/
def State.currentInstr (s : State) : Option Instr :=
  if s.held then none
  else
    match s.fetch with
    | none => none
    | some w => (decode w).toOption

/-- `disp_clear`: the strobe of `00E0` (R130, R133). -/
def dispClear (i : Instr) : Bool :=
  match i with
  | .cls => true
  | .ret => false
  | .jp _ => false
  | .call _ => false
  | .seVxNn _ _ => false
  | .sneVxNn _ _ => false
  | .seVxVy _ _ => false
  | .ldVxNn _ _ => false
  | .addVxNn _ _ => false
  | .ldVxVy _ _ => false
  | .orVxVy _ _ => false
  | .andVxVy _ _ => false
  | .xorVxVy _ _ => false
  | .addVxVy _ _ => false
  | .subVxVy _ _ => false
  | .shrVxVy _ _ => false
  | .subnVxVy _ _ => false
  | .shlVxVy _ _ => false
  | .sneVxVy _ _ => false
  | .ldINnn _ => false
  | .jpV0Nnn _ => false
  | .rndVxNn _ _ => false
  | .drwVxVyN _ _ _ => false
  | .skpVx _ => false
  | .sknpVx _ => false
  | .ldVxDt _ => false
  | .ldVxK _ => false
  | .ldDtVx _ => false
  | .ldStVx _ => false
  | .addIVx _ => false
  | .ldFVx _ => false
  | .ldBVx _ => false
  | .ldMemIVx _ => false
  | .ldVxMemI _ => false

/-- `disp_x`, `disp_y`, `disp_toggle`: the toggles an instruction drives, in order; none when its access fails (R134, R237). -/
def dispToggles (i : Instr) (s : State) : List Pixel :=
  match i with
  | .cls => []
  | .ret => []
  | .jp _ => []
  | .call _ => []
  | .seVxNn _ _ => []
  | .sneVxNn _ _ => []
  | .seVxVy _ _ => []
  | .ldVxNn _ _ => []
  | .addVxNn _ _ => []
  | .ldVxVy _ _ => []
  | .orVxVy _ _ => []
  | .andVxVy _ _ => []
  | .xorVxVy _ _ => []
  | .addVxVy _ _ => []
  | .subVxVy _ _ => []
  | .shrVxVy _ _ => []
  | .subnVxVy _ _ => []
  | .shlVxVy _ _ => []
  | .sneVxVy _ _ => []
  | .ldINnn _ => []
  | .jpV0Nnn _ => []
  | .rndVxNn _ _ => []
  | .drwVxVyN x y n => if s.dataFails n then [] else s.spriteToggles x y n
  | .skpVx _ => []
  | .sknpVx _ => []
  | .ldVxDt _ => []
  | .ldVxK _ => []
  | .ldDtVx _ => []
  | .ldStVx _ => []
  | .addIVx _ => []
  | .ldFVx _ => []
  | .ldBVx _ => []
  | .ldMemIVx _ => []
  | .ldVxMemI _ => []

/-- `key_sel`: the key an instruction queries (R201, R202). -/
def keySel (i : Instr) (s : State) : Option Key :=
  match i with
  | .cls => none
  | .ret => none
  | .jp _ => none
  | .call _ => none
  | .seVxNn _ _ => none
  | .sneVxNn _ _ => none
  | .seVxVy _ _ => none
  | .ldVxNn _ _ => none
  | .addVxNn _ _ => none
  | .ldVxVy _ _ => none
  | .orVxVy _ _ => none
  | .andVxVy _ _ => none
  | .xorVxVy _ _ => none
  | .addVxVy _ _ => none
  | .subVxVy _ _ => none
  | .shrVxVy _ _ => none
  | .subnVxVy _ _ => none
  | .shlVxVy _ _ => none
  | .sneVxVy _ _ => none
  | .ldINnn _ => none
  | .jpV0Nnn _ => none
  | .rndVxNn _ _ => none
  | .drwVxVyN _ _ _ => none
  | .skpVx x => some (s.selectedKey x)
  | .sknpVx x => some (s.selectedKey x)
  | .ldVxDt _ => none
  | .ldVxK _ => none
  | .ldDtVx _ => none
  | .ldStVx _ => none
  | .addIVx _ => none
  | .ldFVx _ => none
  | .ldBVx _ => none
  | .ldMemIVx _ => none
  | .ldVxMemI _ => none

end Sys2Proof.Machine
end

