-- ==== Sys2Proof/Tests/Slice0.lean ====
section
/-! SUPPORT. The model's own tests: ill-formed terms refused, every constructor's decoding from a word written out bit by bit
from 30_encoding.md R104/R105, single steps from the vectors of 95_test_vectors.md part 2, and for every obligation with
hypotheses a concrete state that meets them, clause by clause. -/

namespace Sys2Proof.Tests

open Sys2Proof Sys2Proof.Machine

/-! ### WellFormed refuses each ill-formed operand -/

theorem test_wf_jp_refused : (Instr.jp 0x1000).wf = false := by decide
theorem test_wf_call_refused : (Instr.call 0x1000).wf = false := by decide
theorem test_wf_ldINnn_refused : (Instr.ldINnn 0xFFFF).wf = false := by decide
theorem test_wf_jpV0Nnn_refused : (Instr.jpV0Nnn 0x1000).wf = false := by decide
theorem test_wf_drw_refused : (Instr.drwVxVyN 0 0 16).wf = false := by decide

/-! ### Decoding, from the encoding strings of R104 and R105 (class, X, Y, N, bit 15 first) -/

theorem test_decode_display :
    decode 0b0000_0000_1110_0000 = .ok .cls ∧
    decode 0b1101_0001_0010_0101 = .ok (.drwVxVyN 1 2 5) := by decide

theorem test_decode_flow :
    decode 0b0000_0000_1110_1110 = .ok .ret ∧
    decode 0b0001_0010_0011_0100 = .ok (.jp 0x234) ∧
    decode 0b0010_1010_1011_1100 = .ok (.call 0xABC) ∧
    decode 0b1011_0100_0001_0000 = .ok (.jpV0Nnn 0x410) := by decide

theorem test_decode_skips :
    decode 0b0011_0011_0010_1010 = .ok (.seVxNn 3 0x2A) ∧
    decode 0b0100_0011_0010_1010 = .ok (.sneVxNn 3 0x2A) ∧
    decode 0b0101_0001_0010_0000 = .ok (.seVxVy 1 2) ∧
    decode 0b1001_0001_0010_0000 = .ok (.sneVxVy 1 2) := by decide

theorem test_decode_immediate :
    decode 0b0110_0011_0010_1010 = .ok (.ldVxNn 3 0x2A) ∧
    decode 0b0111_0001_0010_0000 = .ok (.addVxNn 1 0x20) ∧
    decode 0b1100_0101_0000_1111 = .ok (.rndVxNn 5 0x0F) := by decide

theorem test_decode_alu :
    decode 0b1000_1010_1011_0000 = .ok (.ldVxVy 0xA 0xB) ∧
    decode 0b1000_1010_1011_0001 = .ok (.orVxVy 0xA 0xB) ∧
    decode 0b1000_1010_1011_0010 = .ok (.andVxVy 0xA 0xB) ∧
    decode 0b1000_1010_1011_0011 = .ok (.xorVxVy 0xA 0xB) ∧
    decode 0b1000_1010_1011_0100 = .ok (.addVxVy 0xA 0xB) ∧
    decode 0b1000_1010_1011_0101 = .ok (.subVxVy 0xA 0xB) ∧
    decode 0b1000_1010_1011_0110 = .ok (.shrVxVy 0xA 0xB) ∧
    decode 0b1000_1010_1011_0111 = .ok (.subnVxVy 0xA 0xB) ∧
    decode 0b1000_1010_1011_1110 = .ok (.shlVxVy 0xA 0xB) := by decide

theorem test_decode_index :
    decode 0b1010_0010_1111_0000 = .ok (.ldINnn 0x2F0) ∧
    decode 0b1111_0010_0001_1110 = .ok (.addIVx 2) ∧
    decode 0b1111_0100_0010_1001 = .ok (.ldFVx 4) := by decide

theorem test_decode_keypad :
    decode 0b1110_0010_1001_1110 = .ok (.skpVx 2) ∧
    decode 0b1110_0010_1010_0001 = .ok (.sknpVx 2) ∧
    decode 0b1111_0011_0000_1010 = .ok (.ldVxK 3) := by decide

theorem test_decode_timers :
    decode 0b1111_0101_0000_0111 = .ok (.ldVxDt 5) ∧
    decode 0b1111_0001_0001_0101 = .ok (.ldDtVx 1) ∧
    decode 0b1111_0001_0001_1000 = .ok (.ldStVx 1) := by decide

theorem test_decode_transfer :
    decode 0b1111_0011_0011_0011 = .ok (.ldBVx 3) ∧
    decode 0b1111_0010_0101_0101 = .ok (.ldMemIVx 2) ∧
    decode 0b1111_0010_0110_0101 = .ok (.ldVxMemI 2) := by decide

/-- The bytes of a word, high byte first, and a table word of the wrong length (R74, R102). -/
theorem test_decode_bytes :
    decodeBytes [0x12, 0x34, 0x99] = .ok (.jp 0x234, [0x99]) ∧ decodeBytes [0x12] = .error .truncated ∧
    decodeTableWord 16 0x8AB4 = some (.addVxVy 0xA 0xB) ∧ decodeTableWord 16 0x5121 = none := by decide

/-! ### One step on a small state -/

/-- The example configuration of 95_test_vectors.md. -/
abbrev exampleConfig : Config :=
  { Config.default with fontBase := 0x050, displayW := 64, displayH := 32 }

/-- A started core with that configuration, a blank display and no key down. -/
abbrev base : State :=
  { State.atConstruction exampleConfig with sched := .started, fb := [], keys := 0 }

/-- `base` with some registers set. -/
abbrev regs (l : List (Reg × Byte)) : State := l.foldl (fun s p => s.setReg p.1 p.2) base

/-- `s` without the three quirks. -/
abbrev noQuirks (s : State) : State :=
  { s with cfg := { s.cfg with quirkLogicVfReset := false, quirkShiftUsesVy := false, quirkDrawVf := false } }

/-- The state after one step that runs the word `w` from `s`. -/
def after (s : State) (w : Nat) : State :=
  match step (s.withFetchWord 16 w) with
  | .next t => t
  | .fault _ => s
  | .refused _ => s

/-- The state after one step that takes the event `e`. -/
def afterEvent (s : State) (e : Event) : State :=
  match step { s with pending := [e] } with
  | .next t => t
  | .fault _ => s
  | .refused _ => s

theorem test_cls : (after { regs [(0xF, 1)] with fb := [⟨0, 0⟩, ⟨63, 31⟩] } 0x00E0).fb = [] ∧
    (after { regs [(0xF, 1)] with fb := [⟨0, 0⟩] } 0x00E0).reg 0xF = 1 := by decide
theorem test_drw_clips :
    (after { regs [(1, 62), (2, 30)] with i := 0x300, mem := [(0x300, 0xFF), (0x301, 0xFF), (0x302, 0xFF)] } 0xD123).fb
      = [⟨62, 30⟩, ⟨63, 30⟩, ⟨62, 31⟩, ⟨63, 31⟩] := by decide
theorem test_drw_collides :
    let t := after { regs [(1, 67), (2, 33)] with i := 0x300, mem := [(0x300, 0xC0)], fb := [⟨3, 1⟩] } 0xD121
    t.fb = [⟨4, 1⟩] ∧ t.reg 0xF = 1 := by decide
theorem test_ret : let t := after { base with pc := 0x400, stk := [0x204, 0x310] } 0x00EE
    t.pc = 0x310 ∧ t.stk = [0x204] := by decide
theorem test_ret_underflow : (after { base with pc := 0x400 } 0x00EE).flt = some ⟨.stackUnderflow, 0x400, 0⟩ := by decide
theorem test_jp : (after base 0x12A1).pc = 0x2A1 := by decide
theorem test_call : let t := after { base with pc := 0x202 } 0x2300
    t.pc = 0x300 ∧ t.stk = [0x204] := by decide
theorem test_call_overflow :
    let t := after { base with cfg := { exampleConfig with stackDepth := 1 }, stk := [0x222] } 0x2ABC
    t.flt = some ⟨.stackOverflow, 0x200, 0⟩ ∧ t.pc = 0x200 ∧ t.stk = [0x222] := by decide
theorem test_jpV0 : (after (regs [(0, 0xFF)]) 0xBFFF).pc = 0x10FE ∧
    (after (regs [(0, 1), (4, 0x77)]) 0xB410).pc = 0x411 := by decide
theorem test_seVxNn : (after (regs [(3, 0x2A)]) 0x332A).pc = 0x204 ∧ (after (regs [(3, 0x2A)]) 0x332B).pc = 0x202 := by decide
theorem test_sneVxNn : (after (regs [(3, 0x2A)]) 0x432A).pc = 0x202 ∧ (after (regs [(3, 0x2A)]) 0x4300).pc = 0x204 := by decide
theorem test_seVxVy : (after (regs [(1, 7), (2, 7)]) 0x5120).pc = 0x204 ∧ (after (regs [(1, 7), (2, 8)]) 0x5120).pc = 0x202 := by
  decide
theorem test_sneVxVy : (after (regs [(1, 7), (2, 8)]) 0x9120).pc = 0x204 ∧ (after (regs [(1, 7), (2, 7)]) 0x9120).pc = 0x202 := by
  decide
theorem test_ldVxNn : (after base 0x632A).reg 3 = 0x2A ∧ (after base 0x632A).pc = 0x202 := by decide
theorem test_addVxNn : let t := after (regs [(1, 0xFF), (0xF, 1)]) 0x7101
    t.reg 1 = 0 ∧ t.reg 0xF = 1 := by decide
theorem test_rnd : (after { base with rndFeed := [0xB7, 0x01] } 0xC50F).reg 5 = 0x07 ∧
    (after { base with rndFeed := [0xB7, 0x01] } 0xC50F).rndFeed = [0x01] := by decide
/-- With no byte chosen the draw is free, and `NN = 0` still gives 0. -/
theorem test_rnd_free : (after (regs [(5, 0x33)]) 0xC500).draws = 1 ∧ (after (regs [(5, 0x33)]) 0xC500).reg 5 = 0 :=
  ⟨by decide, BitVec.and_zero⟩
theorem test_ldVxVy : (after (regs [(2, 0x5A), (0xF, 9)]) 0x8120).reg 1 = 0x5A ∧
    (after (regs [(2, 0x5A), (0xF, 9)]) 0x8120).reg 0xF = 9 := by decide
theorem test_or : let t := after (regs [(1, 0xF0), (2, 0x0F), (0xF, 1)]) 0x8121
    t.reg 1 = 0xFF ∧ t.reg 0xF = 0 := by decide
theorem test_or_noQuirk : (after (noQuirks (regs [(0xF, 1), (2, 0xF0)])) 0x8F21).reg 0xF = 0xF1 := by decide
theorem test_and : let t := after (regs [(1, 0xF3), (2, 0x3F), (0xF, 1)]) 0x8122
    t.reg 1 = 0x33 ∧ t.reg 0xF = 0 := by decide
theorem test_xor : let t := after (regs [(1, 0xFF), (2, 0x0F), (0xF, 1)]) 0x8123
    t.reg 1 = 0xF0 ∧ t.reg 0xF = 0 := by decide
theorem test_add : let t := after (regs [(1, 0xC8), (2, 0x64)]) 0x8124
    t.reg 1 = 0x2C ∧ t.reg 0xF = 1 := by decide
theorem test_add_flagWins : (after (regs [(0xF, 0xF0), (2, 0x20)]) 0x8F24).reg 0xF = 1 := by decide
theorem test_sub : let t := after (regs [(1, 0x05), (2, 0x0A), (0xF, 1)]) 0x8125
    t.reg 1 = 0xFB ∧ t.reg 0xF = 0 := by decide
theorem test_sub_equal : let t := after (regs [(1, 7), (2, 7)]) 0x8125
    t.reg 1 = 0 ∧ t.reg 0xF = 1 := by decide
theorem test_shr : let t := after (regs [(1, 0xFF), (2, 0x07)]) 0x8126
    t.reg 1 = 0x03 ∧ t.reg 0xF = 1 ∧ t.reg 2 = 0x07 := by decide
theorem test_shr_noQuirk : (after (noQuirks (regs [(1, 0xFF), (2, 0x07)])) 0x8126).reg 1 = 0x7F := by decide
theorem test_subn : let t := after (regs [(1, 0x0A), (2, 0x05), (0xF, 1)]) 0x8127
    t.reg 1 = 0xFB ∧ t.reg 0xF = 0 := by decide
theorem test_shl : let t := after (regs [(1, 0x01), (2, 0x81)]) 0x812E
    t.reg 1 = 0x02 ∧ t.reg 0xF = 1 := by decide
theorem test_shl_noQuirk : let t := after (noQuirks (regs [(1, 0x01), (2, 0x81)])) 0x812E
    t.reg 1 = 0x02 ∧ t.reg 0xF = 0 := by decide
theorem test_ldINnn : (after base 0xA2F0).i = 0x2F0 := by decide
theorem test_addIVx : (after { regs [(2, 0x20)] with i := 0x0FF0 } 0xF21E).i = 0x010 ∧
    (after { base with i := 0x1000 } 0xF21E).i = 0 := by decide
theorem test_ldFVx : (after (regs [(4, 0x0A)]) 0xF429).i = 0x082 ∧ (after (regs [(4, 0x1A)]) 0xF429).i = 0x0D2 := by decide
theorem test_skp : (after { regs [(2, 0xF5)] with keys := 0x0020 } 0xE29E).pc = 0x204 ∧
    (after (regs [(2, 5)]) 0xE29E).pc = 0x202 := by decide
theorem test_sknp : (after { regs [(2, 5)] with keys := 0x0020 } 0xE2A1).pc = 0x202 ∧
    (after (regs [(2, 5)]) 0xE2A1).pc = 0x204 := by decide
theorem test_ldVxK : let t := after base 0xF30A
    t.wait = true ∧ t.wreg = 3 ∧ t.pc = 0x202 := by decide
theorem test_ldVxDt : (after { base with dt := 0x3C } 0xF507).reg 5 = 0x3C := by decide
theorem test_ldDtVx : let t := after (regs [(1, 0x0A)]) 0xF115
    t.dt = 0x0A ∧ t.st = 0 := by decide
theorem test_ldStVx : let t := after { regs [(1, 0xFF)] with dt := 7 } 0xF118
    t.st = 0xFF ∧ t.dt = 7 := by decide
theorem test_ldBVx : let t := after { regs [(3, 0x9C)] with i := 0x300 } 0xF333
    t.mem = [(0x200, 0xF3), (0x201, 0x33), (0x300, 1), (0x301, 5), (0x302, 6)] ∧ t.i = 0x300 := by decide
theorem test_ldBVx_edge : (after { base with i := 0x0FFE } 0xF333).flt = some ⟨.outOfBoundsAccess, 0x200, 0x1000⟩ := by decide
theorem test_ldMemIVx : let t := after { regs [(0, 0x11), (1, 0x22), (2, 0x33), (3, 0x44)] with i := 0x400 } 0xF255
    t.mem = [(0x200, 0xF2), (0x201, 0x55), (0x400, 0x11), (0x401, 0x22), (0x402, 0x33)] ∧ t.i = 0x403 := by decide
theorem test_ldMemIVx_edge : (after { regs [(0, 0xAA)] with i := 0x0FFF } 0xF055).i = 0x1000 ∧
    (after { regs [(0, 0xAA)] with i := 0x0FFF } 0xF155).mem = [(0x200, 0xF1), (0x201, 0x55)] := by decide
theorem test_ldVxMemI : let t := after { regs [(3, 0x99)] with
      i := 0x400, mem := [(0x400, 0x11), (0x401, 0x22), (0x402, 0x33), (0x403, 0x44)] } 0xF265
    t.reg 0 = 0x11 ∧ t.reg 2 = 0x33 ∧ t.reg 3 = 0x99 ∧ t.i = 0x400 := by decide
theorem test_ldVxMemI_edge : (after { regs [(0, 5), (1, 6)] with i := 0x0FFF } 0xF165).v =
    (regs [(0, 5), (1, 6)]).v := by decide

/-! ### Fetch, events and reset (95_test_vectors.md 2.1, 2.8, 2.9, 2.11) -/

theorem test_reset_idles : step State.reset = .next State.reset := rfl
theorem test_zero_memory_is_illegal :
    (afterEvent { base with sched := .stopped } .step).flt = some ⟨.invalidInstruction, 0x200, 0⟩ := by decide
theorem test_fetch_past_end :
    (afterEvent { base with pc := 0x0FFF } .cycle).flt = some ⟨.outOfBoundsAccess, 0x0FFF, 0x1000⟩ := by decide
theorem test_tick : let t := afterEvent { base with dt := 2, st := 0 } .timerTick
    t.dt = 1 ∧ t.st = 0 := by decide
theorem test_keyRelease : let t := afterEvent { base with wait := true, wreg := 3, sched := .stopped } (.keyRelease 7)
    t.reg 3 = 7 ∧ t.wait = false := by decide
theorem test_keysChange : (afterEvent base (.keysChange 0x0020)).keys = 0x0020 := by decide
theorem test_load : (afterEvent base (.load 0x200 [0x00, 0xE0, 0x12, 0x00])).mem = [(0x201, 0xE0), (0x202, 0x12)] ∧
    (afterEvent base (.load 0xFFE [1, 2, 3])).mem = [] := by decide
theorem test_start_stop : (afterEvent { base with flt := some ⟨.stackOverflow, 0, 0⟩, sched := .stopped } .start).sched = .stopped ∧
    (afterEvent { base with wait := true } .stop).sched = .stopped := by decide
theorem test_reset_event : let t := afterEvent { regs [(0xA, 0x9C)] with stk := [0x206], dt := 5, mem := [(0, 1)], fb := [⟨1, 1⟩] } .reset
    t.v = base.v ∧ t.stk = [] ∧ t.dt = 0 ∧ t.mem = [] ∧ t.sched = .stopped ∧ t.fb = [⟨1, 1⟩] := by decide
theorem test_runChunk : (afterEvent base (.runChunk 3)).pending = [.cycle, .cycle, .cycle] := by decide

/-! ### The word map of the host's question -/

theorem test_withFetchWord_runs : (after base 0x8AB4).pc = 0x202 ∧ (after { base with pc := 0xFFFF } 0x1234).pc = 0x234 := by
  decide

/-! ### Ports (60_exceptions.md R258) -/

theorem test_faultPort :
    { base with flt := some ⟨.outOfBoundsAccess, 0xFFFF, 65536⟩ }.faultPort = some (4, 0xFFFF, 65536) ∧
    base.faultPort = none := by decide
theorem test_ports : (regs [(2, 0xF5)] |> keySel (.skpVx 2)) = some 5 ∧ dispClear .cls = true ∧
    dispToggles (.drwVxVyN 1 2 1) { regs [(1, 63)] with i := 0x300, mem := [(0x300, 0xC0)] } = [⟨63, 0⟩] ∧
    { base with st := 1 }.stNonzero = true ∧ { base with st := 1 }.stPort = 1 ∧
    (base.placeWord 0x00E0).currentInstr = some .cls := by decide

/-! ### Witnesses: for every obligation with hypotheses, concrete inputs that meet them, clause by clause -/

/-- `base` with the word `w` at `PC`. -/
abbrev holding (w : Word) : State := base.placeWord w

/-- A faulted core. -/
abbrev faulted : State := { base with flt := some ⟨.stackUnderflow, 0x200, 0⟩, sched := .stopped }

/-- `STACK_DEPTH` entries. -/
abbrev fullStack : State := { base with stk := List.replicate 16 0x300 }

theorem witness_DecodeAfterEncodeIsIdentity :
    (Instr.jp 0xFFF).wf = true ∧ (Instr.drwVxVyN 15 15 15).wf = true ∧ (Instr.ldINnn 0).wf = true ∧
    Instr.cls.wf = true ∧ (Instr.ldVxMemI 15).wf = true := by decide
theorem witness_EncodeAfterDecodeIsIdentity :
    decode 0xDFFF = .ok (.drwVxVyN 15 15 15) ∧ decode 0x1000 = .ok (.jp 0) ∧ decode 0xFF65 = .ok (.ldVxMemI 15) := by decide
theorem witness_DecodeFollowsOpcodeMap_bothCases :
    decode 0x800E = .ok (.shlVxVy 0 0) ∧ decode 0x800F = .error (.unmatchedPattern 0x800F) := by decide
/-- Each clause of R112 at the ends of its range, and the words between. -/
theorem witness_RejectedWordsExactly :
    decode 0x0000 = .error (.unmatchedPattern 0x0000) ∧ decode 0x0FFF = .error (.unmatchedPattern 0x0FFF) ∧
    decode 0x5001 = .error (.unmatchedPattern 0x5001) ∧ decode 0x9FFF = .error (.unmatchedPattern 0x9FFF) ∧
    decode 0x8008 = .error (.unmatchedPattern 0x8008) ∧ decode 0x8FFF = .error (.unmatchedPattern 0x8FFF) ∧
    decode 0xE000 = .error (.unmatchedPattern 0xE000) ∧ decode 0xEFFF = .error (.unmatchedPattern 0xEFFF) ∧
    decode 0xF000 = .error (.unmatchedPattern 0xF000) ∧ decode 0xFFFF = .error (.unmatchedPattern 0xFFFF) ∧
    decode 0x00EE = .ok .ret ∧ decode 0x5FF0 = .ok (.seVxVy 15 15) := by decide
theorem witness_FetchIsBigEndian :
    { base with pc := 0x0FFE }.fetchFits ∧ { base with pc := 0x0201 }.fetchFits ∧ ¬ { base with pc := 0x0FFF }.fetchFits := by
  decide
theorem witness_StepRunsDecodedInstruction :
    (holding 0x1200).wait = false ∧ (holding 0x1200).flt = none ∧ (holding 0x1200).fetchFits ∧
    decode (holding 0x1200).wordAtPc = .ok (.jp 0x200) ∧ (holding 0x1200).pending = [] ∧ (holding 0x1200).sched = .started := by
  decide
/-- The host's `Step` while STOPPED, and a scheduler's cycle as an event. -/
theorem witness_StepRunsDecodedInstruction_events :
    let s := { holding 0x6005 with pending := [.step], sched := .stopped }
    let u := { holding 0x6005 with pending := [.cycle] }
    s.wait = false ∧ s.flt = none ∧ s.fetchFits ∧ decode s.wordAtPc = .ok (.ldVxNn 0 5) ∧ s.pending = .step :: [] ∧
    u.wait = false ∧ u.flt = none ∧ u.fetchFits ∧ decode u.wordAtPc = .ok (.ldVxNn 0 5) ∧ u.pending = .cycle :: [] ∧
    u.sched = .started := by decide
theorem witness_HeldCycleDoesNothing :
    { base with wait := true }.wait = true ∧ { base with wait := true }.pending = [] ∧ faulted.flt.isSome = true ∧
    { faulted with pending := [.step] }.flt.isSome = true ∧ { faulted with pending := [.step] }.pending = .step :: [] := by
  decide
theorem witness_FetchOutsideMemoryFaults :
    let s := { base with pc := 0x0FFF }
    let u := { base with pc := 0xFFFF, cfg := { exampleConfig with memSize := 65536 } }
    s.wait = false ∧ s.flt = none ∧ s.pc.toNat + 1 ≥ s.cfg.memSize ∧
    u.wait = false ∧ u.flt = none ∧ u.pc.toNat + 1 ≥ u.cfg.memSize := by decide
theorem witness_IllegalWordFaults :
    base.wait = false ∧ base.flt = none ∧ base.fetchFits ∧
    decode base.wordAtPc = .error (.unmatchedPattern base.wordAtPc) := by decide
theorem witness_StoppedCoreIdles :
    State.reset.sched = .stopped ∧ State.reset.pending = [] ∧
    { State.reset with pending := [.cycle] }.sched = .stopped ∧ { State.reset with pending := [.cycle] }.pending = .cycle :: [] ∧
    { State.reset with pending := [.timerTick] }.sched = .stopped ∧
    { State.reset with pending := [.timerTick] }.pending = .timerTick :: [] := ⟨rfl, rfl, rfl, rfl, rfl, rfl⟩
theorem witness_RandomIsMaskedDraw :
    { base with rndFeed := [0xB7] }.rndFeed = 0xB7 :: [] ∧ base.rndFeed = [] := by decide
theorem witness_LogicResultAndQuirkFlag :
    (Instr.orVxVy 15 2 = .orVxVy 15 2 ∧ base.reg 15 ||| base.reg 2 = base.reg 15 ||| base.reg 2) ∧
    base.cfg.quirkLogicVfReset = true ∧ (noQuirks base).cfg.quirkLogicVfReset = false := by decide
theorem witness_ShiftsByOneAndBitOut :
    (0x07 : Byte) = (if (regs [(1, 0xFF), (2, 0x07)]).cfg.quirkShiftUsesVy = true then (regs [(1, 0xFF), (2, 0x07)]).reg 2
      else (regs [(1, 0xFF), (2, 0x07)]).reg 1) ∧
    (0xFF : Byte) = (if (noQuirks (regs [(1, 0xFF), (2, 0x07)])).cfg.quirkShiftUsesVy = true then
      (noQuirks (regs [(1, 0xFF), (2, 0x07)])).reg 2 else (noQuirks (regs [(1, 0xFF), (2, 0x07)])).reg 1) := by decide
theorem witness_JumpV0AddsWithoutMask : (0xFFF : Word).toNat < 4096 ∧ (0 : Word).toNat < 4096 := by decide
theorem witness_CallPushesReturnAddress :
    base.sp ≠ base.cfg.stackDepth ∧
    { base with stk := List.replicate 15 0x300 }.sp ≠ { base with stk := List.replicate 15 0x300 }.cfg.stackDepth ∧
    fullStack.sp = fullStack.cfg.stackDepth := by decide
theorem witness_ReturnPopsNewestEntry :
    { base with stk := [0x204] }.stk = [] ++ [0x204] ∧ fullStack.stk = List.replicate 15 0x300 ++ [0x300] ∧ base.sp = 0 := by
  decide
theorem witness_CallThenReturnLandsAfterCall :
    base.sp ≠ base.cfg.stackDepth ∧ exec (.call 0x300) base = .next { base with stk := [0x202], pc := 0x300 } ∧
    { regs [(1, 1)] with stk := [0x202], pc := 0x340 }.stk = [0x202] := ⟨by decide, rfl, rfl⟩
theorem witness_KeySkips :
    true = { regs [(2, 0xFF)] with keys := 0x8000 }.keys.getLsbD (({ regs [(2, 0xFF)] with keys := 0x8000 }.reg 2).toNat % 16) ∧
    false = base.keys.getLsbD ((base.reg 2).toNat % 16) := by decide
theorem witness_KeyReleaseCompletesWait :
    let s := { base with wait := true, wreg := 15, pending := [.keyRelease 15] }
    let u := { base with pending := [.keyRelease 9, .stop] }
    s.pending = .keyRelease 15 :: [] ∧ s.wait = true ∧ u.pending = .keyRelease 9 :: [.stop] ∧ u.wait = false := by decide
theorem witness_TickCountsBothDown :
    let s := { base with dt := 2, st := 0, wait := true, pending := [.timerTick] }
    s.pending = .timerTick :: [] ∧ s.sched = .started := by decide
/-- No tick, and the eleven ticks of T6. -/
theorem witness_TicksNeverGoBelowZero :
    base.sched = .started ∧ base.pending = List.replicate 0 Event.timerTick ++ [] ∧
    { base with dt := 10, pending := List.replicate 11 Event.timerTick ++ [Event.stop] }.sched = .started ∧
    { base with dt := 10, pending := List.replicate 11 Event.timerTick ++ [Event.stop] }.pending =
      List.replicate 11 Event.timerTick ++ [Event.stop] := by decide
theorem witness_TickCommutesWithInstructions :
    (Instr.ldVxNn 3 0x2A).usesTimer = false ∧ ∃ t, exec (.ldVxNn 3 0x2A) { base with dt := 5 } = .next t :=
  ⟨by decide, _, rfl⟩
/-- The last legal `I` and the first illegal one. -/
theorem witness_BcdWritesThreeDigits :
    base.mem.wf ∧ { base with i := 0x0FFD }.i.toNat + 2 < base.cfg.memSize ∧
    { base with i := 0x0FFE }.i.toNat + 2 ≥ base.cfg.memSize := by decide
theorem witness_StoreRegistersAdvancesIndex :
    base.mem.wf ∧ { base with i := 0x0FF0 }.i.toNat + (15 : Reg).val < base.cfg.memSize ∧
    { base with i := 0x0FFF }.i.toNat + (0 : Reg).val < base.cfg.memSize ∧
    { base with i := 0x0FF1 }.i.toNat + (15 : Reg).val ≥ base.cfg.memSize := by decide
theorem witness_LoadRegistersKeepsIndex :
    { base with i := 0x0FF0 }.i.toNat + (15 : Reg).val < base.cfg.memSize ∧
    { base with i := 0x0FFF }.i.toNat + (1 : Reg).val ≥ base.cfg.memSize := by decide
theorem witness_SaveThenRestoreRegisters :
    let s := { regs [(0, 0x11), (15, 0x22)] with i := 0x400 }
    s.mem.wf ∧ s.i.toNat + (15 : Reg).val < s.cfg.memSize ∧
    ∃ t, exec (.ldMemIVx 15) s = .next t ∧
      ({ base with mem := t.mem, i := 0x400 } : State).mem = t.mem ∧
      ({ base with mem := t.mem, i := 0x400 } : State).i = s.i ∧
      ({ base with mem := t.mem, i := 0x400 } : State).cfg = s.cfg := ⟨by decide, by decide, _, rfl, rfl, rfl, rfl⟩
theorem witness_StoreIsSeenByNextFetch :
    base.mem.wf ∧ 1 ≤ (1 : Reg).val ∧ { base with pc := 0x206, i := 0x208 }.i = { base with pc := 0x206, i := 0x208 }.pc + 2 ∧
    { base with pc := 0x206, i := 0x208 }.i.toNat + (1 : Reg).val < base.cfg.memSize := by decide
/-- No row with `I` outside memory, and a sprite that ends at the last cell. -/
theorem witness_DrawFlipsCoveredPixels :
    base.fb.wf base.cfg.displayW base.cfg.displayH ∧ (0 = 0 ∨ { base with i := 0x1234 }.i.toNat + 0 ≤ base.cfg.memSize) ∧
    (15 = 0 ∨ { base with i := 0x0FF1 }.i.toNat + 15 ≤ base.cfg.memSize) := by decide
/-- A state whose sprite meets a set pixel, with and without the quirk, and one whose sprite meets none. -/
theorem witness_DrawFlipsCoveredPixels_collision :
    let s := { base with i := 0x300, mem := [(0x300, 0x80)], fb := [⟨0, 0⟩] }
    s.fb.wf s.cfg.displayW s.cfg.displayH ∧ (1 = 0 ∨ s.i.toNat + 1 ≤ s.cfg.memSize) ∧ s.cfg.quirkDrawVf = true ∧
    (s.spriteCovers 1 2 1 ⟨0, 0⟩ ∧ s.fb.lit ⟨0, 0⟩ = true) ∧ ¬ s.spriteCovers 1 2 1 ⟨1, 0⟩ ∧
    (noQuirks s).cfg.quirkDrawVf = false := by
  refine ⟨by decide, by decide, by decide, ⟨?_, by decide⟩, ?_, by decide⟩ <;> unfold State.spriteCovers <;> decide
theorem witness_DrawFlipsCoveredPixels_noCollision :
    base.fb.wf base.cfg.displayW base.cfg.displayH ∧ (1 = 0 ∨ base.i.toNat + 1 ≤ base.cfg.memSize) ∧
    base.cfg.quirkDrawVf = true ∧ ¬ ∃ p, base.spriteCovers 1 2 1 p ∧ base.fb.lit p = true :=
  ⟨by decide, by decide, rfl, by simp [Frame.lit]⟩
/-- A covered pixel that is unset. -/
theorem witness_DrawTwiceRestoresFrame :
    let s := { base with i := 0x300, mem := [(0x300, 0x80)] }
    s.fb.wf s.cfg.displayW s.cfg.displayH ∧ (1 = 0 ∨ s.i.toNat + 1 ≤ s.cfg.memSize) ∧ s.cfg.quirkDrawVf = true ∧
    s.spriteCovers 1 2 1 ⟨0, 0⟩ ∧ s.fb.lit ⟨0, 0⟩ = false := by
  refine ⟨by decide, by decide, by decide, ?_, by decide⟩
  unfold State.spriteCovers
  decide
theorem witness_RegistersFrame :
    (∃ t, exec (.addVxVy 1 2) base = .next t) ∧ (Instr.addVxVy 1 2).writesReg base.cfg 2 = false ∧
    (∃ t, exec (.ldVxMemI 14) base = .next t) ∧ (Instr.ldVxMemI 14).writesReg base.cfg 15 = false :=
  ⟨⟨_, rfl⟩, by decide, ⟨_, rfl⟩, by decide⟩
/-- The bytes just below and just above the stored ones, and an instruction that stores none. -/
theorem witness_MemoryFrame :
    let s := { base with i := 0x0FF0 }
    s.mem.wf ∧ (∃ t, exec (.ldMemIVx 14) s = .next t) ∧ (0x0FEF < s.base ∨ s.base + (Instr.ldMemIVx 14).storedCells ≤ 0x0FEF) ∧
    (0x0FFF < s.base ∨ s.base + (Instr.ldMemIVx 14).storedCells ≤ 0x0FFF) ∧
    (∃ t, exec .cls s = .next t) ∧ (0x0FF0 < s.base ∨ s.base + Instr.cls.storedCells ≤ 0x0FF0) :=
  ⟨by decide, ⟨_, rfl⟩, by decide, by decide, ⟨_, rfl⟩, by decide⟩
theorem witness_OtherStateFrame :
    (∃ t, exec (.addVxVy 1 2) base = .next t) ∧ (Instr.addVxVy 1 2).writesI = false ∧
    (Instr.addVxVy 1 2).writesStack = false ∧ (Instr.addVxVy 1 2).draws = false ∧
    (∀ x, Instr.addVxVy 1 2 ≠ .ldDtVx x) ∧ (∀ x, Instr.addVxVy 1 2 ≠ .ldStVx x) ∧ (∀ x, Instr.addVxVy 1 2 ≠ .ldVxK x) ∧
    (∀ x nn, Instr.addVxVy 1 2 ≠ .rndVxNn x nn) :=
  ⟨⟨_, rfl⟩, by decide, by decide, by decide, nofun, nofun, nofun, nofun⟩
/-- Each instruction of R235 at the first value that faults. -/
theorem witness_OwnFaultIsTakenPrecisely :
    Instr.ret.ownFault base = some (.stackUnderflow, 0) ∧
    (Instr.call 0x300).ownFault fullStack = some (.stackOverflow, 0) ∧
    (Instr.drwVxVyN 1 2 1).ownFault { base with i := 0x1000 } = some (.outOfBoundsAccess, 0x1000) ∧
    (Instr.ldBVx 3).ownFault { base with i := 0x0FFE } = some (.outOfBoundsAccess, 0x1000) ∧
    (Instr.ldMemIVx 1).ownFault { base with i := 0x0FFF } = some (.outOfBoundsAccess, 0x1000) ∧
    (Instr.ldVxMemI 15).ownFault { base with i := 0x0FF1 } = some (.outOfBoundsAccess, 0x1000) ∧
    (Instr.ldBVx 3).ownFault { base with i := 0x1234 } = some (.outOfBoundsAccess, 0x1234) := by decide
/-- The six instructions of R235 at the last value that does not fault. -/
theorem witness_EveryInstructionCompletes_checked :
    Instr.ret.ownFault { base with stk := [0x204] } = none ∧
    (Instr.call 0x300).ownFault { base with stk := List.replicate 15 0x300 } = none ∧
    (Instr.drwVxVyN 1 2 15).ownFault { base with i := 0x0FF1 } = none ∧
    (Instr.drwVxVyN 1 2 0).ownFault { base with i := 0xFFFF } = none ∧
    (Instr.ldBVx 3).ownFault { base with i := 0x0FFD } = none ∧
    (Instr.ldMemIVx 15).ownFault { base with i := 0x0FF0 } = none ∧
    (Instr.ldVxMemI 0).ownFault { base with i := 0x0FFF } = none := by decide
/-- The 28 others, which raise nothing. -/
theorem witness_EveryInstructionCompletes_free :
    ([Instr.cls, .jp 0xFFF, .seVxNn 0 0, .sneVxNn 0 0, .seVxVy 0 0, .ldVxNn 0 0, .addVxNn 0 0, .ldVxVy 0 0, .orVxVy 0 0,
      .andVxVy 0 0, .xorVxVy 0 0, .addVxVy 0 0, .subVxVy 0 0, .shrVxVy 0 0].all fun i => i.ownFault base == none) = true ∧
    ([Instr.subnVxVy 0 0, .shlVxVy 0 0, .sneVxVy 0 0, .ldINnn 0, .jpV0Nnn 0, .rndVxNn 0 0, .skpVx 0, .sknpVx 0, .ldVxDt 0,
      .ldVxK 0, .ldDtVx 0, .ldStVx 0, .addIVx 0, .ldFVx 0].all fun i => i.ownFault base == none) = true := by decide
theorem witness_RecordedFaultIsSticky :
    faulted.flt = some ⟨.stackUnderflow, 0x200, 0⟩ ∧ faulted.pending.head? ≠ some .reset ∧
    (∃ t, step faulted = .next t) ∧ faulted.sched = .stopped ∧
    { faulted with pending := [.start] }.pending.head? ≠ some .reset ∧
    ∃ t, step { faulted with pending := [.start] } = .next t :=
  ⟨by decide, by decide, ⟨_, rfl⟩, rfl, by decide, _, rfl⟩
theorem witness_ConfigurationNeverChanges : ∃ t, step { base with pending := [.reset] } = .next t := ⟨_, rfl⟩
theorem base_inv : base.Inv where
  legal := by decide
  memWf := by decide
  memWithin := by decide
  stackBounded := by decide
  frameWf := by decide
  faultStops := by decide
  infoFits := nofun
theorem witness_StepKeepsInvariant : base.Inv ∧ ∃ t, step base = .next t := ⟨base_inv, _, rfl⟩
/-- A load that ends at the last cell, one that passes it, and the same for glyphs. -/
theorem witness_LoadWritesWholeOrNothing :
    let s := { base with pending := [.load 0x0FFD [1, 2, 3]] }
    let u := { base with pending := [.loadFont 0x0FFE [1, 2, 3]] }
    s.mem.wf ∧ (s.pending = .load 0x0FFD [1, 2, 3] :: [] ∨ s.pending = .loadFont 0x0FFD [1, 2, 3] :: []) ∧
    0x0FFD + ([1, 2, 3] : List Byte).length ≤ s.cfg.memSize ∧
    u.mem.wf ∧ (u.pending = .load 0x0FFE [1, 2, 3] :: [] ∨ u.pending = .loadFont 0x0FFE [1, 2, 3] :: []) ∧
    0x0FFE + ([1, 2, 3] : List Byte).length > u.cfg.memSize := by decide
theorem witness_StopLeavesStateUntouched : { base with pending := [.stop] }.pending = .stop :: [] := rfl
theorem witness_StartOnlyWithoutFault :
    { base with sched := .stopped, pending := [.start] }.pending = .start :: [] ∧
    { base with sched := .stopped, pending := [.start] }.flt = none ∧
    { faulted with pending := [.start] }.pending = .start :: [] ∧
    { faulted with pending := [.start] }.flt.isSome = true := ⟨rfl, rfl, rfl, rfl⟩
theorem witness_ResetReturnsToConstruction :
    { faulted with pending := [.reset, .start] }.pending = .reset :: [.start] := rfl
theorem witness_RunChunkIsCyclesInOrder :
    { base with pending := [.runChunk 3, .stop] }.pending = .runChunk 3 :: [.stop] ∧ faulted.flt.isSome = true ∧
    { faulted with pending := List.replicate 2 Event.cycle ++ [Event.reset] }.flt.isSome = true ∧
    { faulted with pending := List.replicate 2 Event.cycle ++ [Event.reset] }.pending = List.replicate 2 Event.cycle ++ [Event.reset] :=
  ⟨rfl, rfl, rfl, rfl⟩

end Sys2Proof.Tests
end

section
/-! SUPPORT. What one step can do to the state the invariant speaks of, said once (`State.Effect`, `step_effect`), and the
whole-machine rules that follow: the configuration is fixed (00_scope.md R7), the invariant is kept, reset meets it. -/

namespace Sys2Proof.Machine

/-! ### The effects of a step -/

/-- A change that neither raises a fault nor starts, stops or resets the core, in the fields the invariant speaks of: a run of
cells inside memory may be written (R220, R250), one entry popped or pushed where there is room (R42, R43), the display
cleared or some of its pixels toggled (R131, R133). -/
structure State.OrdinaryChange (s t : State) : Prop where
  cfg : t.cfg = s.cfg := by simp
  sched : t.sched = s.sched := by simp
  flt : t.flt = s.flt := by simp
  mem : t.mem = s.mem ∨ ∃ a bs, a + bs.length ≤ s.cfg.memSize ∧ t.mem = s.mem.writeBytes a bs := by simp
  stk : t.stk = s.stk ∨ t.stk = s.stk.dropLast ∨ ∃ w, s.sp ≠ s.cfg.stackDepth ∧ t.stk = s.stk ++ [w] := by simp
  fb : t.fb = s.fb ∨ t.fb = [] ∨
    ∃ ps, (∀ p ∈ ps, p.x < s.cfg.displayW ∧ p.y < s.cfg.displayH) ∧ t.fb = (s.fb.toggleAll ps).1 := by simp

/-- Everything one event can do. The `info` of a fault is 0, a word, an address or `MEM_SIZE` (R230). -/
inductive State.Effect (s : State) : State → Prop where
  | ordinary {t : State} (h : s.OrdinaryChange t) : s.Effect t
  | fault (c : FaultCause) (k : Nat) (hk : k < 2 ^ 16 ∨ k = s.cfg.memSize) :
      s.Effect { s with flt := some ⟨c, s.pc, k⟩, sched := .stopped }
  | reset : s.Effect s.hostReset
  | start (h : s.flt = none) : s.Effect { s with sched := .started }
  | stop : s.Effect s.hostStop

theorem State.OrdinaryChange.refl (s : State) : s.OrdinaryChange s := {}

theorem effect_of_next {s t u : State} (h : Host.Outcome.next u = (.next t : Result)) (hu : s.OrdinaryChange u) :
    s.Effect t := by
  cases h
  exact .ordinary hu

theorem effect_of_raise {s t : State} {c : FaultCause} {k : Nat} (h : s.raise c k = .next t)
    (hk : k < 2 ^ 16 ∨ k = s.cfg.memSize) : s.Effect t := by
  cases h
  exact .fault c k hk

theorem effect_of_raiseOutOfBounds {s t : State} {w : Word} (h : s.raiseOutOfBounds w.toNat = .next t) : s.Effect t := by
  rw [raiseOutOfBounds_eq] at h
  have := w.isLt
  exact effect_of_raise h (by omega)

/-- A data access checks its whole range before it changes anything (R14, R220). -/
theorem effect_of_rangeCheck {s t u : State} {n : Nat}
    (h : (if s.dataFails n then s.raiseOutOfBounds s.base else .next u) = .next t)
    (hu : s.dataFails n = false → s.OrdinaryChange u) : s.Effect t := by
  split at h
  · exact effect_of_raiseOutOfBounds h
  · exact effect_of_next h (hu (by simpa using ‹¬ s.dataFails n = true›))

/-- The cells of a data access that passed its check lie inside memory. -/
theorem base_add_le_memSize {s : State} {n : Nat} (hn : 0 < n) (h : s.dataFails n = false) :
    s.base + n ≤ s.cfg.memSize :=
  ((dataFails_eq_false s n).1 h).resolve_left (Nat.ne_of_gt hn)

theorem execRet_effect {s t : State} (h : execRet s = .next t) : s.Effect t := by
  unfold execRet at h
  split at h
  · exact effect_of_raise h (.inl (by omega))
  · rename_i hpop
    obtain ⟨-, rfl⟩ := pop_cases hpop
    exact effect_of_next h {}

theorem execCall_effect {s t : State} {nnn : Word} (h : execCall nnn s = .next t) : s.Effect t := by
  unfold execCall at h
  split at h
  · exact effect_of_raise h (.inl (by omega))
  · rename_i hpush
    obtain ⟨hroom, rfl⟩ := push_cases hpush
    exact effect_of_next h { stk := .inr (.inr ⟨_, hroom, rfl⟩) }

/-- All an instruction can do. `00E0` and the six with a fault of their own (R235) have their cases; the other 27 change
registers, `I`, `PC`, timers, the key wait and the random source alone, none of which the invariant speaks of. -/
theorem exec_effect {i : Instr} {s t : State} (h : exec i s = .next t) : s.Effect t := by
  cases i with
  | cls => exact effect_of_next h { fb := .inr (.inl rfl) }
  | ret => exact execRet_effect h
  | call nnn => exact execCall_effect h
  | drwVxVyN x y n =>
    exact effect_of_rangeCheck h fun _ => { fb := .inr (.inr ⟨_, spriteToggles_inside s x y n, by simp⟩) }
  | ldBVx x =>
    exact effect_of_rangeCheck h fun hn =>
      { mem := .inr ⟨s.base, bcdDigits (s.reg x), base_add_le_memSize (Nat.succ_pos _) hn, rfl⟩ }
  | ldMemIVx x =>
    exact effect_of_rangeCheck h fun hn =>
      { mem := .inr ⟨s.base, s.regsUpTo x, by simpa using base_add_le_memSize (Nat.succ_pos _) hn, rfl⟩ }
  | ldVxMemI x => exact effect_of_rangeCheck h fun _ => {}
  | _ => exact effect_of_next h {}

theorem cycle_effect {s t : State} (h : cycle s = .next t) : s.Effect t := by
  obtain ⟨-, e⟩ | ⟨-, -, e⟩ | ⟨-, -, -, e⟩ | ⟨-, -, i, -, e⟩ := cycle_cases s <;> rw [e] at h
  · exact effect_of_next h (.refl s)
  · exact effect_of_raiseOutOfBounds h
  · exact effect_of_raise h (.inl s.wordAtPc.isLt)
  · exact exec_effect h

theorem schedulerCycle_effect {s t : State} (h : schedulerCycle s = .next t) : s.Effect t := by
  cases hs : s.sched with
  | stopped => exact effect_of_next (schedulerCycle_stopped hs ▸ h) (.refl s)
  | started => exact cycle_effect (schedulerCycle_started hs ▸ h)

/-- R250: a load that fits writes inside memory, and one that does not changes nothing. -/
theorem hostLoad_ordinaryChange (s : State) (a : Nat) (bs : List Byte) : s.OrdinaryChange (s.hostLoad a bs) := by
  unfold State.hostLoad
  split
  · exact { mem := .inr ⟨a, bs, ‹_›, rfl⟩ }
  · exact .refl s

/-- R253: `Start` starts only an unfaulted core. -/
theorem hostStart_effect (s : State) : s.Effect s.hostStart := by
  unfold State.hostStart
  split
  · exact .start (by simpa using ‹s.flt.isNone = true›)
  · exact .ordinary (.refl s)

theorem deliver_effect {e : Event} {s t : State} (h : deliver e s = .next t) : s.Effect t := by
  cases e with
  | cycle => exact schedulerCycle_effect h
  | step => exact cycle_effect h
  | load a bs => exact effect_of_next h (hostLoad_ordinaryChange s a bs)
  | loadFont a bs => exact effect_of_next h (hostLoad_ordinaryChange s a bs)
  | reset => cases h; exact .reset
  | start => cases h; exact hostStart_effect s
  | stop => cases h; exact .stop
  | timerTick => exact effect_of_next h {}
  | keyRelease code => exact effect_of_next h {}
  | keysChange down => exact effect_of_next h {}
  | runChunk n => exact effect_of_next h {}

/-- All a step can do to the state the invariant speaks of, whichever event it takes; `rest` are the events after it. -/
theorem step_effect {s t : State} (h : step s = .next t) : ∃ rest, (s.setPending rest).Effect t := by
  obtain ⟨-, -, e⟩ | ⟨-, -, e⟩ | ⟨_, rest, -, e⟩ := step_cases s <;> rw [e] at h
  · exact ⟨s.pending, effect_of_next h (.refl s)⟩
  · exact ⟨s.pending, cycle_effect h⟩
  · exact ⟨rest, deliver_effect h⟩

/-! ### The configuration (R7) -/

theorem State.Effect.cfg_eq {s t : State} (h : s.Effect t) : t.cfg = s.cfg := by
  cases h with
  | ordinary h => exact h.cfg
  | fault | reset | start | stop => rfl

/-- Settles O52: no effect of a step reaches the configuration. -/
theorem configurationNeverChanges : Obligations.ConfigurationNeverChanges := by
  intro s t h
  obtain ⟨_, heff⟩ := step_effect h
  exact heff.cfg_eq

/-! ### The invariant (R41, R45, R132, R246, R258) -/

namespace State.OrdinaryChange

variable {s t : State} (h : s.OrdinaryChange t)
include h

theorem memWf (hs : s.mem.wf) : t.mem.wf := by
  obtain e | ⟨a, bs, -, e⟩ := h.mem <;> rw [e]
  · exact hs
  · exact Memory.writeBytes_wf hs a bs

theorem memWithin (hs : s.mem.within s.cfg.memSize) : t.mem.within s.cfg.memSize := by
  obtain e | ⟨a, bs, hfit, e⟩ := h.mem <;> rw [e]
  · exact hs
  · exact Memory.writeBytes_within hs hfit

theorem stackBounded (hs : s.sp ≤ s.cfg.stackDepth) : t.sp ≤ s.cfg.stackDepth := by
  unfold State.sp at *
  obtain e | e | ⟨w, hroom, e⟩ := h.stk <;> rw [e]
  · exact hs
  · rw [List.length_dropLast]
    omega
  · rw [List.length_append, List.length_singleton]
    exact Nat.lt_of_le_of_ne hs hroom

theorem frameWf (hs : s.fb.wf s.cfg.displayW s.cfg.displayH) : t.fb.wf s.cfg.displayW s.cfg.displayH := by
  obtain e | e | ⟨ps, hin, e⟩ := h.fb <;> rw [e]
  · exact hs
  · exact ⟨.nil, nofun⟩
  · exact Frame.toggleAll_wf hs hin

theorem keeps_inv (hs : s.Inv) : t.Inv where
  legal := h.cfg ▸ hs.legal
  memWf := h.memWf hs.memWf
  memWithin := h.cfg ▸ h.memWithin hs.memWithin
  stackBounded := h.cfg ▸ h.stackBounded hs.stackBounded
  frameWf := h.cfg ▸ h.frameWf hs.frameWf
  faultStops := by rw [h.flt, h.sched]; exact hs.faultStops
  infoFits := by rw [h.flt]; exact hs.infoFits

end State.OrdinaryChange

theorem State.Effect.keeps_inv {s t : State} (h : s.Effect t) (hs : s.Inv) : t.Inv := by
  cases h with
  | ordinary h => exact h.keeps_inv hs
  | fault c k hk =>
    have hfits : k < 2 ^ 17 := by
      obtain ⟨-, hmem, -⟩ := hs.legal
      omega
    exact { hs with faultStops := fun _ => rfl, infoFits := fun r hr => by cases hr; exact hfits }
  | reset =>
    exact { hs with
      memWf := Memory.nil_wf, memWithin := nofun, stackBounded := Nat.zero_le _, faultStops := nofun, infoFits := nofun }
  | start h => exact { hs with faultStops := fun hf => by simp [h] at hf }
  | stop => exact { hs with faultStops := fun _ => rfl }

/-- Settles O53: each effect of a step keeps the invariant, and the coming events are no part of it. -/
theorem stepKeepsInvariant : Obligations.StepKeepsInvariant := by
  intro s t hs h
  obtain ⟨rest, heff⟩ := step_effect h
  have hrest : (s.setPending rest).Inv := { hs with }
  exact heff.keeps_inv hrest

/-! ### The state after reset (R51, R132) -/

/-- Whatever the free picture is, its list of set pixels is in canonical form. -/
theorem powerOnFrame_wf (w h : Nat) : (powerOnFrame w h).wf w h := by
  refine ⟨?sorted, fun p hp => ?inside⟩
  case sorted =>
    refine List.pairwise_flatMap.2 ⟨fun y _ => ?_, List.pairwise_lt_range.imp fun hy p hp q hq => ?_⟩
    · refine List.pairwise_map.2 ((List.pairwise_lt_range.filter _).imp fun hx => ?_)
      exact (Pixel.before_iff _ _).2 (.inr ⟨rfl, hx⟩)
    · obtain ⟨_, -, rfl⟩ := List.mem_map.1 hp
      obtain ⟨_, -, rfl⟩ := List.mem_map.1 hq
      exact (Pixel.before_iff _ _).2 (.inl hy)
  case inside =>
    simp only [powerOnFrame, List.mem_flatMap, List.mem_map, List.mem_filter, List.mem_range] at hp
    obtain ⟨y, hy, x, ⟨hx, -⟩, rfl⟩ := hp
    exact ⟨hx, hy⟩

/-- The state at construction meets the invariant in every legal configuration. -/
theorem atConstruction_inv {c : Config} (h : c.legal) : (State.atConstruction c).Inv where
  legal := h
  memWf := Memory.nil_wf
  memWithin := nofun
  stackBounded := Nat.zero_le _
  frameWf := powerOnFrame_wf _ _
  faultStops := nofun
  infoFits := nofun

theorem default_legal : Config.default.legal :=
  ⟨by decide, by decide, by decide, Nat.le_add_left 1 _, Nat.le_add_left 1 _⟩

/-- Settles O54: `State.reset` is the state at construction in the default configuration, which is legal. -/
theorem resetMeetsInvariant : Obligations.ResetMeetsInvariant := atConstruction_inv default_legal

end Sys2Proof.Machine
end

section
/-! SUPPORT. What an instruction may write (10_state.md R33, R34, R36, R41, R44, R46, R47, R50), read off its two outcomes: it
takes a fault, which writes `FLT` and `SCHED` alone (60_exceptions.md R236), or it completes in the one state its meaning
names. Then the timers under a run of ticks (R44) and the values after reset (R51). -/

namespace Sys2Proof.Machine

/-! ### The outcomes of an instruction that can fault -/

/-- `t` is `s` after a fault was taken: the record is written, the scheduler stops, nothing else changes (R236). -/
def State.TookFault (s t : State) : Prop := ∃ r, t = { s with flt := some r, sched := .stopped }

theorem tookFault_of_raise {s t : State} {c : FaultCause} {k : Nat} (h : s.raise c k = .next t) : s.TookFault t := by
  cases h
  exact ⟨_, rfl⟩

/-- A data access takes a fault, or its range check passed and it completes (R14, R220). -/
theorem rangeCheck_cases {s t u : State} {n : Nat}
    (h : (if s.dataFails n then s.raiseOutOfBounds s.base else .next u) = .next t) : s.TookFault t ∨ t = u := by
  split at h
  · exact .inl (tookFault_of_raise h)
  · cases h
    exact .inr rfl

theorem execRet_cases {s t : State} (h : execRet s = .next t) :
    s.TookFault t ∨ ∃ w, t = (s.setStk s.stk.dropLast).setPc w := by
  unfold execRet at h
  split at h
  · exact .inl (tookFault_of_raise h)
  · rename_i hpop
    obtain ⟨-, rfl⟩ := pop_cases hpop
    cases h
    exact .inr ⟨_, rfl⟩

theorem execCall_cases {s t : State} {nnn : Word} (h : execCall nnn s = .next t) :
    s.TookFault t ∨ t = (s.setStk (s.stk ++ [s.npc])).setPc nnn := by
  unfold execCall at h
  split at h
  · exact .inl (tookFault_of_raise h)
  · rename_i hpush
    obtain ⟨-, rfl⟩ := push_cases hpush
    cases h
    exact .inr rfl

/-! ### The `V` registers (R33, R34) -/

theorem State.TookFault.reg_eq {s t : State} (h : s.TookFault t) (r : Reg) : t.reg r = s.reg r := by
  obtain ⟨_, rfl⟩ := h
  rfl

/-- Settles O46: the instructions fall into those that write `V[X]` alone, those that write `V[X]` and the flag, `DXYN` that
writes the flag alone, `FX65` that writes `V0..VX`, and those that write no register. -/
theorem registersFrame : Obligations.RegistersFrame := by
  intro i s t h r hr
  cases i with
  | ret =>
    obtain hf | ⟨_, rfl⟩ := execRet_cases h
    · exact hf.reg_eq r
    · rfl
  | call nnn =>
    obtain hf | rfl := execCall_cases h
    · exact hf.reg_eq r
    · rfl
  | ldBVx x | ldMemIVx x =>
    obtain hf | rfl := rangeCheck_cases h
    · exact hf.reg_eq r
    · rfl
  | ldVxMemI x =>
    obtain hf | rfl := rangeCheck_cases h
    · exact hf.reg_eq r
    · have hx : ¬ r ≤ x := of_decide_eq_false hr
      simp [hx]
  | drwVxVyN x y n =>
    obtain hf | rfl := rangeCheck_cases h
    · exact hf.reg_eq r
    · have hvf : ¬ (s.cfg.quirkDrawVf = true ∧ r = Reg.vf) := by simpa [Instr.writesReg] using hr
      simp [hvf]
  | ldVxNn x _ | addVxNn x _ | ldVxVy x _ | rndVxNn x _ | ldVxDt x =>
    cases h
    have hx : r ≠ x := of_decide_eq_false hr
    simp [hx]
  | orVxVy x _ | andVxVy x _ | xorVxVy x _ =>
    cases h
    obtain ⟨hx, hvf⟩ : r ≠ x ∧ ¬ (s.cfg.quirkLogicVfReset = true ∧ r = Reg.vf) := by simpa [Instr.writesReg] using hr
    simp [hx, hvf]
  | addVxVy x _ | subVxVy x _ | shrVxVy x _ | subnVxVy x _ | shlVxVy x _ =>
    cases h
    obtain ⟨hx, hvf⟩ : r ≠ x ∧ r ≠ Reg.vf := by simpa [Instr.writesReg] using hr
    simp [hx, hvf]
  | _ =>
    cases h
    rfl

/-! ### The rest of the state (R36, R41, R44, R46, R47, R50) -/

/-- Beside the `V` registers, memory, `PC`, `SCHED` and `FLT`, nothing of `s` differs in `t` but what the spec lets `i`
write. -/
structure State.KeepsOthers (i : Instr) (s t : State) : Prop where
  index : i.writesI = false → t.i = s.i := by simp [Instr.writesI]
  stack : i.writesStack = false → t.stk = s.stk := by simp [Instr.writesStack]
  frame : i.draws = false → t.fb = s.fb := by simp [Instr.draws]
  delay : (∀ x, i ≠ .ldDtVx x) → t.dt = s.dt := by simp
  sound : (∀ x, i ≠ .ldStVx x) → t.st = s.st := by simp
  keyWait : (∀ x, i ≠ .ldVxK x) → t.wait = s.wait ∧ t.wreg = s.wreg := by simp
  random : (∀ x nn, i ≠ .rndVxNn x nn) → t.rndFeed = s.rndFeed ∧ t.draws = s.draws := by simp
  cfg : t.cfg = s.cfg := by simp
  keys : t.keys = s.keys := by simp
  pending : t.pending = s.pending := by simp

theorem State.TookFault.keepsOthers {s t : State} (h : s.TookFault t) (i : Instr) : s.KeepsOthers i t := by
  obtain ⟨_, rfl⟩ := h
  exact {}

theorem keepsOthers_of_next {i : Instr} {s t u : State} (h : Host.Outcome.next u = (.next t : Result))
    (hu : s.KeepsOthers i u) : s.KeepsOthers i t := by
  cases h
  exact hu

/-- Every instruction keeps what the spec does not let it write. -/
theorem exec_keepsOthers {i : Instr} {s t : State} (h : exec i s = .next t) : s.KeepsOthers i t := by
  cases i with
  | ret =>
    obtain hf | ⟨_, rfl⟩ := execRet_cases h
    · exact hf.keepsOthers _
    · exact {}
  | call nnn =>
    obtain hf | rfl := execCall_cases h
    · exact hf.keepsOthers _
    · exact {}
  | drwVxVyN _ _ _ | ldBVx _ | ldMemIVx _ | ldVxMemI _ =>
    obtain hf | rfl := rangeCheck_cases h
    · exact hf.keepsOthers _
    · exact {}
  | _ => exact keepsOthers_of_next h {}

/-- Settles O48: the fields of `State.KeepsOthers`. -/
theorem otherStateFrame : Obligations.OtherStateFrame := by
  intro i s t h
  obtain ⟨hindex, hstack, hframe, hdelay, hsound, hkeyWait, hrandom, hcfg, hkeys, hpending⟩ := exec_keepsOthers h
  exact ⟨hindex, hstack, hframe, hdelay, hsound, hkeyWait, hrandom, hcfg, hkeys, hpending⟩

/-! ### The timers under ticks (R44, R213) -/

theorem timerTick_of_started {s : State} (h : s.sched = .started) : s.timerTick = s.tickTimers := by
  simp [State.timerTick, h]

/-- A tick while STARTED is one step, and counts both timers down. -/
theorem step_of_tick {s : State} {rest : List Event} (h : s.pending = .timerTick :: rest) (hs : s.sched = .started) :
    step s = .next (s.setPending rest).tickTimers := by
  rw [step_of_event h]
  exact congrArg Host.Outcome.next (timerTick_of_started hs)

/-- Settles O36, by induction on the number of ticks: the first counts each timer down by at most one, and the others run
from the state after it. -/
theorem ticksNeverGoBelowZero : Obligations.TicksNeverGoBelowZero := by
  intro n
  induction n with
  | zero =>
    intro s rest _ hp
    obtain rfl : s.pending = rest := hp
    exact ⟨s, rfl, rfl, rfl, rfl⟩
  | succ n ih =>
    intro s rest hs hp
    have hstep := step_of_tick (rest := List.replicate n .timerTick ++ rest) hp hs
    obtain ⟨t, hrun, hdt, hst, ht⟩ := ih (s.setPending (List.replicate n .timerTick ++ rest)).tickTimers rest hs rfl
    simp only [State.tickTimers_dt, State.tickTimers_st, countDown_toNat, State.setPending_dt, State.setPending_st,
      Nat.sub_sub, Nat.add_comm 1 n] at hdt hst
    exact ⟨t, (run_succ_of_next hstep n).trans hrun, hdt, hst, ht⟩

/-! ### The values after reset (R51) -/

@[simp] theorem reg_atConstruction (c : Config) (r : Reg) : (State.atConstruction c).reg r = 0 :=
  Vector.getElem_replicate _

/-- Settles O55: `State.reset` is the state at construction in the default configuration. -/
theorem resetValues : Obligations.ResetValues :=
  ⟨reg_atConstruction _, rfl, rfl, rfl, rfl, rfl, Memory.read_nil, rfl, rfl, rfl, rfl, rfl, rfl⟩

end Sys2Proof.Machine
end

section
/-! SUPPORT. Memory (20_memory.md): the word a fetch assembles (R74), the cells an instruction stores (R71), a store that the
next fetch sees (R83), and a timer tick beside an instruction (R82). -/

namespace Sys2Proof.Machine

/-! ### The fetched word (R74) -/

/-- Settles O6: the fetched word is `hi * 256 + lo` with both bytes below 256. -/
theorem fetchIsBigEndian : Obligations.FetchIsBigEndian := by
  intro s hfit hi lo
  have hword : s.wordAtPc.toNat = hi.toNat * 256 + lo.toNat := wordOfBytes_toNat hi lo
  have hhi : hi.toNat < 256 := hi.isLt
  have hlo : lo.toNat < 256 := lo.isLt
  refine ⟨s.wordAtPc, fetch_of_fits hfit, hword, ?_⟩
  simp only [opClass, fieldX_val, fieldY_val, fieldN, hword]
  omega

/-! ### The cells an instruction stores (R71) -/

theorem State.TookFault.mem_eq {s t : State} (h : s.TookFault t) : t.mem = s.mem := by
  obtain ⟨_, rfl⟩ := h
  rfl

/-- All an instruction can do to memory: nothing, or one store of its `storedCells` bytes from `I` on. -/
theorem exec_mem_cases {i : Instr} {s t : State} (h : exec i s = .next t) :
    t.mem = s.mem ∨ ∃ bs : List Byte, bs.length = i.storedCells ∧ t.mem = s.mem.writeBytes s.base bs := by
  cases i with
  | ldBVx x | ldMemIVx x =>
    obtain hf | rfl := rangeCheck_cases h
    · exact .inl hf.mem_eq
    · exact .inr ⟨_, by simp [bcdDigits, Instr.storedCells], rfl⟩
  | drwVxVyN _ _ _ | ldVxMemI _ =>
    obtain hf | rfl := rangeCheck_cases h
    · exact .inl hf.mem_eq
    · exact .inl (by simp)
  | ret =>
    obtain hf | ⟨_, rfl⟩ := execRet_cases h
    · exact .inl hf.mem_eq
    · exact .inl rfl
  | call nnn =>
    obtain hf | rfl := execCall_cases h
    · exact .inl hf.mem_eq
    · exact .inl rfl
  | _ =>
    cases h
    exact .inl (by simp)

/-- Settles O47: a cell outside the one store an instruction can make reads as before. -/
theorem memoryFrame : Obligations.MemoryFrame := by
  intro i s t hwf h a ha
  obtain e | ⟨bs, hlen, e⟩ := exec_mem_cases h
  · rw [e]
  · rw [e]
    exact Memory.read_writeBytes_outside hwf (hlen ▸ ha)

/-! ### A store that the next fetch sees (R83) -/

/-- After the store of `V0..VX` each cell holds its register (R222). -/
theorem Memory.read_writeBytes_regsUpTo {m : Memory} (hm : m.wf) (s : State) (a : Nat) {r x : Reg} (h : r ≤ x) :
    (m.writeBytes a (s.regsUpTo x)).read (a + r.val) = s.reg r := by
  have hlt : r.val < x.val + 1 := Nat.lt_succ_of_le h
  rw [Memory.read_writeBytes hm, regsUpTo_length, if_pos (by omega), Nat.add_sub_cancel_left, regsUpTo_getD s x r h]

/-- R222: `FX55` inside memory completes. -/
theorem exec_ldMemIVx_of_fits {s : State} {x : Reg} (h : s.i.toNat + x.val < s.cfg.memSize) :
    exec (.ldMemIVx x) s =
      .next ((s.store s.base (s.regsUpTo x)).setI (BitVec.ofNat 16 (s.base + x.val + 1))).advance :=
  if_neg (by rw [dataFails_iff]; omega)

/-- Settles O42: the next `PC` is the `I` of the store, so the fetch reads the cells of `V0` and `V1`. -/
theorem storeIsSeenByNextFetch : Obligations.StoreIsSeenByNextFetch := by
  intro s x hwf hx hi hfit
  have hcell : ∀ r ≤ x, (s.mem.writeBytes s.base (s.regsUpTo x)).read (s.base + r.val) = s.reg r :=
    fun _ hr => Memory.read_writeBytes_regsUpTo hwf s s.base hr
  refine ⟨_, exec_ldMemIVx_of_fits hfit, hi.symm, (fetch_of_fits ?fits).trans (congrArg some ?word)⟩
  case fits =>
    show (s.pc + 2).toNat + 1 < s.cfg.memSize
    rw [← hi]
    omega
  case word =>
    show wordOfBytes ((s.mem.writeBytes s.base (s.regsUpTo x)).read (s.pc + 2).toNat)
      ((s.mem.writeBytes s.base (s.regsUpTo x)).read ((s.pc + 2).toNat + 1)) = _
    rw [← hi]
    exact congrArg₂ wordOfBytes (hcell 0 (Fin.zero_le x)) (hcell 1 hx)

/-! ### A timer tick beside an instruction (R82)

The operations that branch, each run after a tick; every other one commutes with a tick by definition. -/

theorem tickTimers_logicResult (s : State) (x : Reg) (r : Byte) :
    s.tickTimers.logicResult x r = (s.logicResult x r).tickTimers := by
  rw [State.logicResult, State.logicResult, apply_ite State.tickTimers]
  rfl

theorem tickTimers_writeCollision (s : State) (c : Bool) :
    s.tickTimers.writeCollision c = (s.writeCollision c).tickTimers := by
  rw [State.writeCollision, State.writeCollision, apply_ite State.tickTimers]
  rfl

theorem tickTimers_afterDraw (s : State) : s.tickTimers.afterDraw = s.afterDraw.tickTimers := by
  cases h : s.rndFeed with
  | nil =>
    rw [afterDraw_free h, afterDraw_free (s := s.tickTimers) h]
    rfl
  | cons b rest =>
    rw [afterDraw_of_feed h, afterDraw_of_feed (s := s.tickTimers) h]
    rfl

/-- A data access after a tick: neither the range check nor the fault reads a timer. -/
theorem rangeCheck_tick {s t u u' : State} {n : Nat}
    (h : (if s.dataFails n then s.raiseOutOfBounds s.base else .next u) = .next t) (hu : u' = u.tickTimers) :
    (if s.tickTimers.dataFails n then s.tickTimers.raiseOutOfBounds s.tickTimers.base else .next u') =
      .next t.tickTimers := by
  have hcheck : s.tickTimers.dataFails n = s.dataFails n := rfl
  subst hu
  rw [hcheck]
  split at h <;> cases h
  · rw [if_pos ‹_›]
    rfl
  · rw [if_neg ‹_›]

theorem execRet_tick {s t : State} (h : execRet s = .next t) : execRet s.tickTimers = .next t.tickTimers := by
  unfold execRet at h ⊢
  split at h
  · rename_i hpop
    cases h
    rw [(pop_eq_none s.tickTimers).2 ((pop_eq_none s).1 hpop)]
    rfl
  · rename_i hpop
    obtain ⟨hstk, rfl⟩ := pop_cases hpop
    cases h
    rw [pop_concat (s := s.tickTimers) hstk]
    rfl

theorem execCall_tick {s t : State} {nnn : Word} (h : execCall nnn s = .next t) :
    execCall nnn s.tickTimers = .next t.tickTimers := by
  unfold execCall at h ⊢
  split at h
  · rename_i hpush
    cases h
    rw [(push_eq_none s.tickTimers _).2 ((push_eq_none s _).1 hpush)]
    rfl
  · rename_i hpush
    obtain ⟨hroom, rfl⟩ := push_cases hpush
    cases h
    rw [push_of_room (s := s.tickTimers) hroom]
    rfl

/-- Every instruction but the three timer ones runs the same before and after a tick. -/
theorem exec_tick {i : Instr} {s t : State} (hi : i.usesTimer = false) (h : exec i s = .next t) :
    exec i s.tickTimers = .next t.tickTimers := by
  cases i with
  | ldVxDt _ | ldDtVx _ | ldStVx _ => cases hi
  | ret => exact execRet_tick h
  | call nnn => exact execCall_tick h
  | ldBVx _ | ldMemIVx _ | ldVxMemI _ => exact rangeCheck_tick h rfl
  | drwVxVyN x y n =>
    have hu := tickTimers_writeCollision (s.displayToggle (s.spriteToggles x y n)) (s.collides (s.spriteToggles x y n))
    exact rangeCheck_tick h (congrArg State.advance hu)
  | orVxVy _ _ | andVxVy _ _ | xorVxVy _ _ =>
    cases h
    exact congrArg Host.Outcome.next (tickTimers_logicResult _ _ _)
  | rndVxNn x nn =>
    cases h
    show Host.Outcome.next (s.tickTimers.afterDraw.setReg x (s.randomByte &&& nn)).advance = _
    rw [tickTimers_afterDraw]
    rfl
  | _ =>
    cases h
    rfl

/-- Settles O37: a tick writes `DT` and `ST`, and `exec_tick` is the second half. -/
theorem tickCommutesWithInstructions : Obligations.TickCommutesWithInstructions :=
  ⟨fun _ => rfl, fun _ _ _ => exec_tick⟩

end Sys2Proof.Machine
end

section
/-! SUPPORT. The encoder and the decoder are each other's inverse, format by format (30_encoding.md R102, R104); a word that
matches a row of the opcode map decodes as the row's own pattern does (R105); the rejected words, class by class (R112). -/

namespace Sys2Proof

theorem opClass_lt (w : Word) : opClass w < 16 := by
  have := w.isLt
  unfold opClass
  omega

/-! ### The fields of a packed word (R102) -/

section PackedFields

variable {c : Nat} (hc : c < 16)
include hc

theorem fields_packNNN {nnn : Word} (hn : nnn.toNat < 4096) :
    opClass (packNNN c nnn) = c ∧ fieldNNN (packNNN c nnn) = nnn := by
  have h := packNNN_toNat hc hn
  refine ⟨?_, BitVec.eq_of_toNat_eq ?_⟩ <;> simp only [opClass, fieldNNN_toNat, h] <;> omega

theorem fields_packXNN (x : Reg) (nn : Byte) :
    opClass (packXNN c x nn) = c ∧ fieldX (packXNN c x nn) = x ∧ fieldNN (packXNN c x nn) = nn := by
  have h := packXNN_toNat hc x nn
  refine ⟨?_, Fin.ext ?_, BitVec.eq_of_toNat_eq ?_⟩ <;> simp only [opClass, fieldX_val, fieldNN_toNat, h] <;> omega

theorem fields_packXY (x y : Reg) {n : Nat} (hn : n < 16) :
    opClass (packXY c x y n) = c ∧ fieldX (packXY c x y n) = x ∧ fieldY (packXY c x y n) = y ∧
      fieldN (packXY c x y n) = n := by
  have h := packXY_toNat hc x y hn
  refine ⟨?_, Fin.ext ?_, Fin.ext ?_, ?_⟩ <;> simp only [opClass, fieldX_val, fieldY_val, fieldN, h] <;> omega

theorem fields_packX (x : Reg) {n : Nat} (hn : n < 256) :
    opClass (packX c x n) = c ∧ fieldX (packX c x n) = x ∧ subNN (packX c x n) = n := by
  have h := packX_toNat hc x hn
  refine ⟨?_, Fin.ext ?_, ?_⟩ <;> simp only [opClass, fieldX_val, subNN, h] <;> omega

end PackedFields

/-- Settles O1: the decoder selects on the class, `N` and `NN` of the word and takes the operands from its other fields, and
in each of the four formats those are the values packed. -/
theorem decodeAfterEncodeIsIdentity : Obligations.DecodeAfterEncodeIsIdentity := by
  intro i hwf
  cases i with
  | cls | ret => rfl
  | jp nnn | call nnn | ldINnn nnn | jpV0Nnn nnn =>
    have hn : nnn.toNat < 4096 := of_decide_eq_true hwf
    simp [encode, decode, fields_packNNN, hn]
  | seVxNn _ _ | sneVxNn _ _ | ldVxNn _ _ | addVxNn _ _ | rndVxNn _ _ => simp [encode, decode, fields_packXNN]
  | seVxVy _ _ | sneVxVy _ _ => simp [encode, decode, fields_packXY]
  | ldVxVy _ _ | orVxVy _ _ | andVxVy _ _ | xorVxVy _ _ | addVxVy _ _ | subVxVy _ _ | shrVxVy _ _ | subnVxVy _ _
  | shlVxVy _ _ => simp [encode, decode, decodeClass8, fields_packXY]
  | drwVxVyN x y n =>
    have hn : n < 16 := of_decide_eq_true hwf
    show decode (packXY 0xD x y n) = _
    simp [decode, fields_packXY, hn]
  | skpVx _ | sknpVx _ => simp [encode, decode, decodeClassE, fields_packX]
  | ldVxDt _ | ldVxK _ | ldDtVx _ | ldStVx _ | addIVx _ | ldFVx _ | ldBVx _ | ldMemIVx _ | ldVxMemI _ =>
    simp [encode, decode, decodeClassF, fields_packX]

/-! ### A word packed from its own fields -/

theorem packNNN_fields {w : Word} {c : Nat} (hc : opClass w = c) : packNNN c (fieldNNN w) = w := by
  subst hc
  apply BitVec.eq_of_toNat_eq
  rw [packNNN_toNat (opClass_lt w) (by rw [fieldNNN_toNat]; omega), fieldNNN_toNat, opClass]
  omega

theorem packXNN_fields {w : Word} {c : Nat} (hc : opClass w = c) : packXNN c (fieldX w) (fieldNN w) = w := by
  subst hc
  apply BitVec.eq_of_toNat_eq
  rw [packXNN_toNat (opClass_lt w), fieldX_val, fieldNN_toNat, opClass]
  omega

theorem packXY_fields {w : Word} {c n : Nat} (hc : opClass w = c) (hn : fieldN w = n) :
    packXY c (fieldX w) (fieldY w) n = w := by
  subst hc hn
  have hn : fieldN w < 16 := Nat.mod_lt _ (by decide)
  apply BitVec.eq_of_toNat_eq
  rw [packXY_toNat (opClass_lt w) _ _ hn, fieldX_val, fieldY_val, opClass, fieldN]
  omega

theorem packX_fields {w : Word} {c n : Nat} (hc : opClass w = c) (hn : subNN w = n) : packX c (fieldX w) n = w := by
  subst hc hn
  have hn : subNN w < 256 := Nat.mod_lt _ (by decide)
  apply BitVec.eq_of_toNat_eq
  rw [packX_toNat (opClass_lt w) _ hn, fieldX_val, opClass, subNN]
  omega

theorem encode_of_decodeClass0 {w : Word} {i : Instr} (h : decodeClass0 w = .ok i) : encode i = w := by
  unfold decodeClass0 at h
  split at h
  · cases h
    exact Eq.symm ‹_›
  · split at h <;> cases h
    exact Eq.symm ‹_›

theorem encode_of_decodeClass8 {w : Word} {i : Instr} (hc : opClass w = 0x8) (h : decodeClass8 w = .ok i) :
    encode i = w := by
  unfold decodeClass8 at h
  split at h <;> cases h <;> exact packXY_fields hc ‹_›

theorem encode_of_decodeClassE {w : Word} {i : Instr} (hc : opClass w = 0xE) (h : decodeClassE w = .ok i) :
    encode i = w := by
  unfold decodeClassE at h
  split at h
  · cases h
    exact packX_fields hc ‹_›
  · split at h <;> cases h
    exact packX_fields hc ‹_›

theorem encode_of_decodeClassF {w : Word} {i : Instr} (hc : opClass w = 0xF) (h : decodeClassF w = .ok i) :
    encode i = w := by
  unfold decodeClassF at h
  split at h <;> cases h <;> exact packX_fields hc ‹_›

/-- Settles O2: the decoder's operands are fields of the word, and its class, `N` and `NN` are those of the encoding, so the
encoder packs the word again. -/
theorem encodeAfterDecodeIsIdentity : Obligations.EncodeAfterDecodeIsIdentity := by
  intro w i h
  unfold decode at h
  split at h <;> rename_i hc
  case h_1 => exact encode_of_decodeClass0 h
  case h_9 => exact encode_of_decodeClass8 hc h
  case h_15 => exact encode_of_decodeClassE hc h
  case h_16 => exact encode_of_decodeClassF hc h
  case h_6 | h_10 =>
    split at h <;> cases h
    exact packXY_fields hc ‹_›
  case h_14 =>
    cases h
    exact packXY_fields hc rfl
  case h_2 | h_3 | h_11 | h_12 =>
    cases h
    exact packNNN_fields hc
  case h_4 | h_5 | h_7 | h_8 | h_13 =>
    cases h
    exact packXNN_fields hc
  case h_17 => cases h

/-! ### The opcode map (R105) -/

/-- The mnemonic of a word's instruction, none for a rejected word. -/
def opcodeName (w : Word) : Option String := (decode w).toOption.map Instr.mnemonic

/-! Which fields of a word decide its mnemonic: the class alone, the class and `N`, or the class and `NN`. -/

theorem opcodeName_eq_of_class {w p : Word} (hc : opClass w = opClass p)
    (hp : opClass p ∈ [0x1, 0x2, 0x3, 0x4, 0x6, 0x7, 0xA, 0xB, 0xC, 0xD]) : opcodeName w = opcodeName p := by
  simp only [List.mem_cons, List.not_mem_nil, or_false] at hp
  obtain h | h | h | h | h | h | h | h | h | h := hp <;> simp only [opcodeName, decode, hc, h] <;> rfl

theorem opcodeName_eq_of_N {w p : Word} (hc : opClass w = opClass p) (hn : fieldN w = fieldN p)
    (hp : opClass p ∈ [0x5, 0x8, 0x9]) : opcodeName w = opcodeName p := by
  simp only [List.mem_cons, List.not_mem_nil, or_false] at hp
  obtain h | h | h := hp <;> simp only [opcodeName, decode, decodeClass8, hc, hn, h] <;> split <;> rfl

theorem opcodeName_eq_of_NN {w p : Word} (hc : opClass w = opClass p) (hn : subNN w = subNN p)
    (hp : opClass p ∈ [0xE, 0xF]) : opcodeName w = opcodeName p := by
  simp only [List.mem_cons, List.not_mem_nil, or_false] at hp
  obtain h | h := hp <;> simp only [opcodeName, decode, decodeClassE, decodeClassF, hc, hn, h]
  · split
    · rfl
    · split <;> rfl
  · split <;> rfl

/-- Each row's mask keeps the whole word, or the fields that decide the mnemonic in the row's class. -/
theorem opcodeMap_mask : ∀ r ∈ opcodeMap,
    r.mask = 0xFFFF ∨
    (r.mask = 0xF000 ∧ opClass r.pattern ∈ [0x1, 0x2, 0x3, 0x4, 0x6, 0x7, 0xA, 0xB, 0xC, 0xD]) ∨
    (r.mask = 0xF00F ∧ opClass r.pattern ∈ [0x5, 0x8, 0x9]) ∨
    (r.mask = 0xF0FF ∧ opClass r.pattern ∈ [0xE, 0xF]) := by decide

/-- Each row's pattern decodes to the row's instruction. -/
theorem opcodeName_pattern : ∀ r ∈ opcodeMap, opcodeName r.pattern = some r.mnemonic := by decide

/-- A word that matches a row decodes to the row's instruction, as the row's pattern does. -/
theorem opcodeName_of_matchesWord {r : OpcodeRow} {w : Word} (hr : r ∈ opcodeMap) (hw : r.matchesWord w = true) :
    opcodeName w = some r.mnemonic := by
  rw [← opcodeName_pattern r hr]
  have hw : w &&& r.mask = r.pattern := eq_of_beq hw
  have hnat := congrArg BitVec.toNat hw
  obtain hm | ⟨hm, hp⟩ | ⟨hm, hp⟩ | ⟨hm, hp⟩ := opcodeMap_mask r hr
  · rw [← hw, hm]
    exact congrArg opcodeName BitVec.and_allOnes.symm
  · rw [hm, and_F000_toNat] at hnat
    exact opcodeName_eq_of_class (by unfold opClass; omega) hp
  · rw [hm, and_F00F_toNat] at hnat
    exact opcodeName_eq_of_N (by unfold opClass; omega) (by unfold fieldN; omega) hp
  · rw [hm, and_F0FF_toNat] at hnat
    exact opcodeName_eq_of_NN (by unfold opClass; omega) (by unfold subNN; omega) hp

open Laws.MatchesOwnRow in
/-- The word of each of the 34 instructions matches the instruction's own row. -/
theorem matchesOwnRow (i : Instr) : Statement i := by
  cases i
  exacts [cls, ret, jp _, call _, seVxNn _ _, sneVxNn _ _, seVxVy _ _, ldVxNn _ _, addVxNn _ _, ldVxVy _ _, orVxVy _ _,
    andVxVy _ _, xorVxVy _ _, addVxVy _ _, subVxVy _ _, shrVxVy _ _, subnVxVy _ _, shlVxVy _ _, sneVxVy _ _, ldINnn _,
    jpV0Nnn _, rndVxNn _ _, drwVxVyN _ _ _, skpVx _, sknpVx _, ldVxDt _, ldVxK _, ldDtVx _, ldStVx _, addIVx _, ldFVx _,
    ldBVx _, ldMemIVx _, ldVxMemI _]

/-- The mnemonic of an instruction names exactly one row. -/
theorem filter_mnemonic (i : Instr) : (opcodeMap.filter fun r => r.mnemonic = i.mnemonic) = i.row?.toList := by
  cases i <;> rfl

theorem row?_mnemonic (i : Instr) : i.row?.toList.map OpcodeRow.mnemonic = [i.mnemonic] := by
  cases i <;> rfl

/-- The rows a decoded word matches are those its instruction's mnemonic names: such a row is the instruction's own, and the
word is the instruction's word. -/
theorem matchesWord_iff {r : OpcodeRow} {w : Word} {i : Instr} (hr : r ∈ opcodeMap) (hd : decode w = .ok i) :
    r.matchesWord w = true ↔ r.mnemonic = i.mnemonic := by
  constructor
  · intro hw
    have hname := opcodeName_of_matchesWord hr hw
    rw [opcodeName, hd] at hname
    exact (Option.some.inj hname).symm
  · intro hname
    have hmem : r ∈ i.row?.toList := by
      rw [← filter_mnemonic]
      exact List.mem_filter.2 ⟨hr, decide_eq_true hname⟩
    obtain ⟨r', hrow, hw⟩ := matchesOwnRow i (decode_wf hd)
    rw [encodeAfterDecodeIsIdentity w i hd] at hw
    rw [hrow, Option.toList_some, List.mem_singleton] at hmem
    exact hmem ▸ hw

/-- Settles O3: a decoded word matches its instruction's row alone, and a word that matches a row is not rejected. -/
theorem decodeFollowsOpcodeMap : Obligations.DecodeFollowsOpcodeMap := by
  intro w
  cases hd : decode w with
  | ok i =>
    have hrows : (opcodeMap.filter fun r => r.matchesWord w) = i.row?.toList := by
      rw [← filter_mnemonic]
      exact List.filter_congr fun r hr => Bool.eq_iff_iff.2 (by rw [decide_eq_true_iff, matchesWord_iff hr hd])
    exact (congrArg (List.map OpcodeRow.mnemonic) hrows).trans (row?_mnemonic i)
  | error e =>
    have hrows : (opcodeMap.filter fun r => r.matchesWord w) = [] := by
      refine List.filter_eq_nil_iff.2 fun r hr hw => ?_
      have hname := opcodeName_of_matchesWord hr hw
      rw [opcodeName, hd] at hname
      cases hname
    exact congrArg (List.map OpcodeRow.mnemonic) hrows

/-! ### The rejected words (R112, D13) -/

theorem decodeClass0_rejects (w : Word) :
    decodeClass0 w = .error (.unmatchedPattern w) ↔ w ≠ 0x00E0 ∧ w ≠ 0x00EE := by
  unfold decodeClass0
  split
  · simp [*]
  · split
    · simp [*]
    · exact ⟨fun _ => ⟨‹_›, ‹_›⟩, fun _ => rfl⟩

theorem decodeClass8_rejects (w : Word) :
    decodeClass8 w = .error (.unmatchedPattern w) ↔ fieldN w ∈ [0x8, 0x9, 0xA, 0xB, 0xC, 0xD, 0xF] := by
  have hn : fieldN w < 16 := Nat.mod_lt _ (by decide)
  unfold decodeClass8
  interval_cases fieldN w <;> simp

theorem decodeClassE_rejects (w : Word) :
    decodeClassE w = .error (.unmatchedPattern w) ↔ subNN w ≠ 0x9E ∧ subNN w ≠ 0xA1 := by
  unfold decodeClassE
  split
  · simp [*]
  · split <;> simp [*]

theorem decodeClassF_rejects (w : Word) :
    decodeClassF w = .error (.unmatchedPattern w) ↔
      subNN w ∉ [0x07, 0x0A, 0x15, 0x18, 0x1E, 0x29, 0x33, 0x55, 0x65] := by
  unfold decodeClassF
  split
  case h_10 =>
    simp only [imp_false] at *
    simp [*]
  all_goals simp [*]

/-- Settles O5: in each of the 16 classes one clause of R112 is left, or none. -/
theorem rejectedWordsExactly : Obligations.RejectedWordsExactly := by
  intro w
  have hlt := opClass_lt w
  show _ ↔ (opClass w = 0x0 ∧ _) ∨ (opClass w = 0x5 ∧ fieldN w ≠ 0) ∨ (opClass w = 0x9 ∧ fieldN w ≠ 0) ∨
    (opClass w = 0x8 ∧ fieldN w ∈ _) ∨ (opClass w = 0xE ∧ subNN w ≠ _ ∧ subNN w ≠ _) ∨ (opClass w = 0xF ∧ subNN w ∉ _)
  unfold decode
  interval_cases opClass w <;> simp [decodeClass0_rejects, decodeClass8_rejects, decodeClassE_rejects, decodeClassF_rejects]

/-- Settles O4, each clause by running the decoder on its word. -/
theorem decodesWorkedEncodings : Obligations.DecodesWorkedEncodings := by
  unfold Obligations.DecodesWorkedEncodings
  decide

end Sys2Proof

namespace Sys2Proof.Machine

/-! ### The instruction cycle (R100, R101, R238) -/

/-- R100: a `Cycle` that nothing holds back executes the instruction of the word at `PC`. -/
theorem cycle_of_decode {s : State} {i : Instr} (hs : s.held = false) (hf : s.fetchFits)
    (hd : decode s.wordAtPc = .ok i) : cycle s = exec i s :=
  (cycle_of_fits hs hf).trans (runWord_of_ok hd)

/-- Settles O7: each of the three steps is a `Cycle`, on a state that differs in the coming events alone. -/
theorem stepRunsDecodedInstruction : Obligations.StepRunsDecodedInstruction := by
  intro s i hwait hflt hf hd
  have hs := (held_eq_false s).2 ⟨hwait, hflt⟩
  have hrest (rest : List Event) : cycle (s.setPending rest) = exec i (s.setPending rest) := cycle_of_decode hs hf hd
  refine ⟨fun hp hsched => ?_, fun rest hp => ?_, fun rest hp hsched => ?_⟩
  · exact (step_of_started hp hsched).trans (cycle_of_decode hs hf hd)
  · exact (step_of_event hp).trans (hrest rest)
  · exact (step_of_event hp).trans ((schedulerCycle_started (s := s.setPending rest) hsched).trans (hrest rest))

/-- Settles O8: with no coming event the step is a held `Cycle` or, while STOPPED, none at all; the host's `Step` is a held
`Cycle` on the state without its event. -/
theorem heldCycleDoesNothing : Obligations.HeldCycleDoesNothing := by
  intro s h
  have hs : s.held = true := (held_iff s).2 h
  refine ⟨cycle_of_held hs, fun hp => ?_, fun rest hp => (step_of_event hp).trans (cycle_of_held hs)⟩
  cases hsched : s.sched with
  | stopped => exact step_of_stopped hp hsched
  | started => exact (step_of_started hp hsched).trans (cycle_of_held hs)

/-- Settles O9: the fetch fails, and the fault it takes is `State.raise`. -/
theorem fetchOutsideMemoryFaults : Obligations.FetchOutsideMemoryFaults := by
  intro s hwait hflt hpc
  rw [cycle_of_not_fits ((held_eq_false s).2 ⟨hwait, hflt⟩) (Nat.not_lt.2 hpc), raiseOutOfBounds_eq, raise_eq]

/-- Settles O10: the fetch succeeds, and running a rejected word is `State.raise`. -/
theorem illegalWordFaults : Obligations.IllegalWordFaults := by
  intro s hwait hflt hf hd
  rw [cycle_of_fits ((held_eq_false s).2 ⟨hwait, hflt⟩) hf, runWord_of_error hd, raise_eq]

end Sys2Proof.Machine
end

section
/-! SUPPORT. The display (40_display.md): `00E0` (R133), then `DXYN` read off the one state it completes in: its pixels, its
collision and its frame (R134), and the same sprite drawn a second time (R134 (g)). -/

namespace Sys2Proof.Machine

/-- Settles O43: the cleared frame lists no pixel. -/
theorem clearUnsetsEveryPixel : Obligations.ClearUnsetsEveryPixel :=
  fun s => ⟨s.displayClear.advance, rfl, Frame.lit_nil, rfl⟩

/-! ### The state a sprite draw completes in (R134) -/

/-- `DXYN` past its range check: the sprite's toggles, then the collision, then `npc`. -/
def State.drawn (s : State) (x y : Reg) (n : Nat) : State :=
  ((s.displayToggle (s.spriteToggles x y n)).writeCollision (s.collides (s.spriteToggles x y n))).advance

/-- `DXYN` with no row or with all its rows in memory completes. -/
theorem exec_drwVxVyN_of_fits {s : State} {n : Nat} (h : n = 0 ∨ s.i.toNat + n ≤ s.cfg.memSize) (x y : Reg) :
    exec (.drwVxVyN x y n) s = .next (s.drawn x y n) :=
  if_neg (by rw [(dataFails_eq_false s n).2 h]; exact Bool.false_ne_true)

/-- A draw writes registers, the display and `PC` alone. -/
theorem drawn_eq (s : State) (x y : Reg) (n : Nat) :
    s.drawn x y n = { s with v := (s.drawn x y n).v, fb := (s.drawn x y n).fb, pc := s.pc + 2 } := by
  unfold State.drawn State.writeCollision
  split <;> rfl

/-- The collision goes to `VF`, under the quirk alone. -/
theorem reg_drawn (s : State) (x y : Reg) (n : Nat) (r : Reg) :
    (s.drawn x y n).reg r =
      if s.cfg.quirkDrawVf = true ∧ r = Reg.vf then collisionFlag (s.collides (s.spriteToggles x y n)) else s.reg r :=
  State.reg_writeCollision _ _ r

theorem fb_drawn (s : State) (x y : Reg) (n : Nat) :
    (s.drawn x y n).fb = (s.fb.toggleAll (s.spriteToggles x y n)).1 :=
  State.writeCollision_fb _ _

/-- The toggles of `DXYN` are the pixels its sprite covers. -/
theorem mem_spriteToggles_iff_spriteCovers {s : State} {x y : Reg} {n : Nat} {p : Pixel} :
    p ∈ s.spriteToggles x y n ↔ s.spriteCovers x y n p :=
  mem_spriteToggles s x y n p

@[simp] theorem collisionFlag_eq_one {c : Bool} : collisionFlag c = 1 ↔ c = true := by
  cases c <;> decide

section WellFormedFrame

variable {s : State} (hwf : s.fb.wf s.cfg.displayW s.cfg.displayH) (x y : Reg) (n : Nat)
include hwf

theorem drawn_fb_wf : (s.drawn x y n).fb.wf s.cfg.displayW s.cfg.displayH := by
  rw [fb_drawn]
  exact Frame.toggleAll_wf hwf (spriteToggles_inside s x y n)

/-- A covered pixel flips (R134). -/
theorem lit_drawn_of_covers {p : Pixel} (hp : s.spriteCovers x y n p) : (s.drawn x y n).fb.lit p = !s.fb.lit p := by
  rw [fb_drawn, Frame.lit_toggleAll hwf.1 (spriteToggles_nodup s x y n),
    decide_eq_true (mem_spriteToggles_iff_spriteCovers.2 hp), Bool.xor_true]

/-- A pixel the sprite does not cover stays as it is (R134). -/
theorem lit_drawn_of_not_covers {p : Pixel} (hp : ¬ s.spriteCovers x y n p) :
    (s.drawn x y n).fb.lit p = s.fb.lit p := by
  rw [fb_drawn, Frame.lit_toggleAll hwf.1 (spriteToggles_nodup s x y n),
    decide_eq_false (mt mem_spriteToggles_iff_spriteCovers.1 hp), Bool.xor_false]

/-- A draw collides exactly when a covered pixel was set (R134). -/
theorem collides_spriteToggles :
    s.collides (s.spriteToggles x y n) = true ↔ ∃ p, s.spriteCovers x y n p ∧ s.fb.lit p = true := by
  unfold State.collides
  rw [Frame.toggleAll_collides hwf.1 (spriteToggles_nodup s x y n), List.any_eq_true]
  simp only [mem_spriteToggles_iff_spriteCovers]

/-- Under the quirk `VF` is 1 exactly when a covered pixel was set before the draw. -/
theorem drawn_vf_eq_one (hq : s.cfg.quirkDrawVf = true) :
    (s.drawn x y n).reg Reg.vf = 1 ↔ ∃ p, s.spriteCovers x y n p ∧ s.fb.lit p = true := by
  rw [reg_drawn, if_pos ⟨hq, rfl⟩, collisionFlag_eq_one, collides_spriteToggles hwf]

end WellFormedFrame

/-- Settles O44: the toggles are the covered pixels, each once, and all of them follow the range check. -/
theorem drawFlipsCoveredPixels : Obligations.DrawFlipsCoveredPixels := by
  intro s x y n hwf hfit
  refine ⟨s.drawn x y n, exec_drwVxVyN_of_fits hfit x y, fun _ => lit_drawn_of_covers hwf x y n,
    fun _ => lit_drawn_of_not_covers hwf x y n, fun hq => (drawn_vf_eq_one hwf x y n hq).2, ?noCollision, ?noQuirk,
    ?otherRegs, drawn_eq s x y n⟩
  case noCollision =>
    intro hq hnone
    rw [reg_drawn, if_pos ⟨hq, rfl⟩, Bool.eq_false_iff.2 (mt (collides_spriteToggles hwf x y n).1 hnone)]
    rfl
  case noQuirk =>
    intro hq
    rw [reg_drawn, if_neg fun h => Bool.false_ne_true (hq.symm.trans h.1)]
  case otherRegs =>
    intro r hr
    rw [reg_drawn, if_neg fun h => hr h.2]

/-! ### The same sprite drawn again (R134 (g)) -/

/-- The state after a draw with the registers as before it: the same `DXYN` then meets its own picture, and covers the same
pixels by definition. -/
def State.beforeRedraw (s : State) (x y : Reg) (n : Nat) : State := { s with fb := (s.drawn x y n).fb, pc := s.pc + 2 }

theorem drawn_with_v (s : State) (x y : Reg) (n : Nat) : { s.drawn x y n with v := s.v } = s.beforeRedraw x y n := by
  rw [drawn_eq]
  rfl

section WellFormedFrame

variable {s : State} (hwf : s.fb.wf s.cfg.displayW s.cfg.displayH) (x y : Reg) (n : Nat)
include hwf

/-- A pixel the sprite covers is flipped twice, any other not at all. -/
theorem lit_redrawn (p : Pixel) : ((s.beforeRedraw x y n).drawn x y n).fb.lit p = s.fb.lit p := by
  have hwf' := drawn_fb_wf hwf x y n
  by_cases hp : s.spriteCovers x y n p
  · calc ((s.beforeRedraw x y n).drawn x y n).fb.lit p
      _ = !(s.drawn x y n).fb.lit p := lit_drawn_of_covers (s := s.beforeRedraw x y n) hwf' x y n hp
      _ = s.fb.lit p := by rw [lit_drawn_of_covers hwf x y n hp, Bool.not_not]
  · exact (lit_drawn_of_not_covers (s := s.beforeRedraw x y n) hwf' x y n hp).trans
      (lit_drawn_of_not_covers hwf x y n hp)

/-- A covered pixel the second draw meets set is one the first found unset. -/
theorem redrawn_vf_eq_one (hq : s.cfg.quirkDrawVf = true) :
    ((s.beforeRedraw x y n).drawn x y n).reg Reg.vf = 1 ↔ ∃ p, s.spriteCovers x y n p ∧ s.fb.lit p = false := by
  refine (drawn_vf_eq_one (s := s.beforeRedraw x y n) (drawn_fb_wf hwf x y n) x y n hq).trans
    (exists_congr fun p => and_congr_right fun hp => ?_)
  show (s.drawn x y n).fb.lit p = true ↔ _
  rw [lit_drawn_of_covers hwf x y n hp, Bool.not_eq_true']

end WellFormedFrame

/-- Settles O45: the second draw passes the same range check and covers the same pixels, each flipped once by the first. -/
theorem drawTwiceRestoresFrame : Obligations.DrawTwiceRestoresFrame := by
  intro s x y n hwf hfit
  have hsecond : exec (.drwVxVyN x y n) { s.drawn x y n with v := s.v } =
      .next ((s.beforeRedraw x y n).drawn x y n) := by
    rw [drawn_with_v]
    exact exec_drwVxVyN_of_fits (s := s.beforeRedraw x y n) hfit x y
  exact ⟨s.drawn x y n, exec_drwVxVyN_of_fits hfit x y, _, hsecond, lit_redrawn hwf x y n, redrawn_vf_eq_one hwf x y n⟩

end Sys2Proof.Machine
end

section
/-! SUPPORT. The control transfers (41_flow.md R140 to R143): what `CALL` and `RET` answer for each stack they can meet, from
the laws of `Push` and `Pop` (10_state.md R42, R43). -/

namespace Sys2Proof.Machine

/-! ### The jumps (R141, R143) -/

/-- Settles O21: a jump is one assignment to `PC`. -/
theorem jumpGoesToTarget : Obligations.JumpGoesToTarget := fun _ _ => rfl

/-- A 12-bit address and a byte add up without a carry out of 16 bits. -/
theorem toNat_add_setWidth_of_lt {nnn : Word} (h : nnn.toNat < 4096) (b : Byte) :
    (nnn + b.setWidth 16).toNat = nnn.toNat + b.toNat := by
  have hb := b.isLt
  have hwide : (b.setWidth 16).toNat = b.toNat := BitVec.toNat_setWidth_of_le (by decide)
  rw [BitVec.toNat_add_of_lt (by omega), hwide]

/-- Settles O22: the sum stays below 2^16, so the 16-bit addition is exact. -/
theorem jumpV0AddsWithoutMask : Obligations.JumpV0AddsWithoutMask :=
  fun s _ hnnn => ⟨_, rfl, toNat_add_setWidth_of_lt hnnn (s.reg Reg.v0), rfl⟩

/-! ### Calls (R142) -/

theorem exec_call_of_room {s : State} (h : s.sp ≠ s.cfg.stackDepth) (nnn : Word) :
    exec (.call nnn) s = .next { s with stk := s.stk ++ [s.pc + 2], pc := nnn } := by
  show execCall nnn s = _
  rw [execCall, push_of_room h]
  rfl

theorem exec_call_of_full {s : State} (h : s.sp = s.cfg.stackDepth) (nnn : Word) :
    exec (.call nnn) s = s.raise .stackOverflow 0 := by
  show execCall nnn s = _
  rw [execCall, (push_eq_none s _).2 h]

/-- Settles O23: the two answers of `Push`. -/
theorem callPushesReturnAddress : Obligations.CallPushesReturnAddress :=
  fun _ nnn => ⟨fun hroom => exec_call_of_room hroom nnn, fun hfull => exec_call_of_full hfull nnn⟩

/-! ### Returns (R140) -/

theorem exec_ret_of_concat {s : State} {older : List Word} {newest : Word} (h : s.stk = older ++ [newest]) :
    exec .ret s = .next { s with stk := older, pc := newest } := by
  show execRet s = _
  rw [execRet, pop_concat h]
  rfl

theorem exec_ret_of_empty {s : State} (h : s.sp = 0) : exec .ret s = s.raise .stackUnderflow 0 := by
  show execRet s = _
  rw [execRet, (pop_eq_none s).2 h]

/-- Settles O24: the two answers of `Pop`. -/
theorem returnPopsNewestEntry : Obligations.ReturnPopsNewestEntry :=
  ⟨fun _ _ _ hstk => exec_ret_of_concat hstk, fun _ hempty => exec_ret_of_empty hempty⟩

/-- Settles O25: the call's entry is the newest one of every state that keeps the stack, so the return pops that entry. -/
theorem callThenReturnLandsAfterCall : Obligations.CallThenReturnLandsAfterCall := by
  intro s nnn hroom
  refine ⟨_, exec_call_of_room hroom nnn, fun t' hstk => ?_⟩
  exact ⟨_, exec_ret_of_concat hstk, rfl, rfl⟩

end Sys2Proof.Machine
end

section
/-! SUPPORT. The conditional skips (42_skip.md R150 to R153): the Boolean test each hands to `State.skipIf`, read as the
comparison of its rule. -/

namespace Sys2Proof.Machine

/-- A skip whose test decides `P` commits `PC + 4` when `P` holds and `PC + 2` when not, and changes nothing else. -/
theorem skipIf_of_iff (s : State) {taken : Bool} {P : Prop} [Decidable P] (h : taken = true ↔ P) :
    s.skipIf taken = { s with pc := if P then s.pc + 4 else s.pc + 2 } := by
  rw [skipIf_eq, if_congr h rfl rfl]

/-- R150, R152: a skip on equality. -/
theorem next_skipIf_beq (s : State) (a b : Byte) :
    (.next (s.skipIf (a == b)) : Result) = .next { s with pc := if a = b then s.pc + 4 else s.pc + 2 } :=
  congrArg Host.Outcome.next (skipIf_of_iff s beq_iff_eq)

/-- R151, R153: a skip on inequality. -/
theorem next_skipIf_bne (s : State) (a b : Byte) :
    (.next (s.skipIf (a != b)) : Result) = .next { s with pc := if a ≠ b then s.pc + 4 else s.pc + 2 } :=
  congrArg Host.Outcome.next (skipIf_of_iff s bne_iff_ne)

/-- Settles O26: `3XNN` and `4XNN` are the two skips at the register and the immediate. -/
theorem immediateSkips : Obligations.ImmediateSkips :=
  fun s x nn => ⟨next_skipIf_beq s (s.reg x) nn, next_skipIf_bne s (s.reg x) nn⟩

/-- Settles O27: `5XY0` and `9XY0` are the two skips at the two registers. -/
theorem registerSkips : Obligations.RegisterSkips :=
  fun s x y => ⟨next_skipIf_beq s (s.reg x) (s.reg y), next_skipIf_bne s (s.reg x) (s.reg y)⟩

end Sys2Proof.Machine
end

section
/-! SUPPORT. The register-immediate instructions (43_immediate.md R160 to R163): each writes one register and advances, so
the three share the laws of that state. -/

namespace Sys2Proof.Machine

/-! ### One register written, then `PC` advanced (R34, R38) -/

theorem reg_setReg_advance_self (s : State) (x : Reg) (b : Byte) : (s.setReg x b).advance.reg x = b := by simp

theorem reg_setReg_advance_of_ne (s : State) {x r : Reg} (h : r ≠ x) (b : Byte) :
    (s.setReg x b).advance.reg r = s.reg r := by simp [h]

theorem setReg_advance_eq (s : State) (x : Reg) (b : Byte) :
    (s.setReg x b).advance = { s with v := (s.setReg x b).advance.v, pc := s.pc + 2 } := rfl

/-! ### Constants and sums (R160, R161) -/

/-- Settles O13: the state is `NN` written to `V[X]`. -/
theorem loadImmediateWritesByte : Obligations.LoadImmediateWritesByte := fun s x nn =>
  ⟨_, rfl, reg_setReg_advance_self s x nn, fun _ hr => reg_setReg_advance_of_ne s hr nn, setReg_advance_eq s x nn⟩

/-- Settles O14: the byte written is the sum cut to 8 bits, and it is the one register write. -/
theorem addImmediateWrapsWithoutFlag : Obligations.AddImmediateWrapsWithoutFlag := by
  intro s x nn
  refine ⟨_, rfl, ?sum, fun _ hr => reg_setReg_advance_of_ne s hr _, setReg_advance_eq s x _⟩
  case sum => rw [reg_setReg_advance_self, BitVec.toNat_ofNat]

/-! ### The masked draw (R162, R163) -/

/-- A masked byte has no bit that the mask lacks. -/
theorem and_and_not_self (b nn : Byte) : b &&& nn &&& ~~~nn = 0 := by
  rw [BitVec.and_assoc, BitVec.and_not_self]
  exact BitVec.and_zero

/-- Settles O15: the draw leaves the registers alone, so the masked byte is the one register write; which byte it is, and what
the draw uses up, are the two cases of the feed. -/
theorem randomIsMaskedDraw : Obligations.RandomIsMaskedDraw := by
  intro s x nn
  refine ⟨(s.afterDraw.setReg x (s.randomByte &&& nn)).advance, rfl, ?masked, ?otherRegs, ?chosen, ?free⟩
  case masked => rw [reg_setReg_advance_self, and_and_not_self]
  case otherRegs =>
    intro r hr
    rw [reg_setReg_advance_of_ne _ hr, State.reg_afterDraw]
  case chosen =>
    intro b rest hfeed
    rw [randomByte_of_feed hfeed, afterDraw_of_feed hfeed]
    exact ⟨reg_setReg_advance_self _ x _, setReg_advance_eq _ x _⟩
  case free =>
    intro hfeed
    rw [randomByte_free hfeed, afterDraw_free hfeed]
    exact ⟨reg_setReg_advance_self _ x _, setReg_advance_eq _ x _⟩

end Sys2Proof.Machine
end

section
/-! SUPPORT. The register-register instructions (44_alu.md R170 to R178): the two shapes of state they complete in, a result
then a flag and a result then the quirk's reset, and each result and flag as a fact about bytes. -/

namespace Sys2Proof.Machine

/-! ### The copy (R170) -/

/-- Settles O16: the state is the old `V[Y]` written to `V[X]`. -/
theorem copyRegister : Obligations.CopyRegister := fun s x y =>
  ⟨_, rfl, reg_setReg_advance_self s x (s.reg y), fun _ hr => reg_setReg_advance_of_ne s hr (s.reg y),
    setReg_advance_eq s x (s.reg y)⟩

/-! ### A result, then the quirk's reset of `VF` (R171 to R173) -/

/-- A logic instruction writes registers and `PC` alone. -/
theorem logicResult_eq (s : State) (x : Reg) (r : Byte) :
    s.logicResult x r = { s with v := (s.logicResult x r).v, pc := s.pc + 2 } := by
  unfold State.logicResult
  split <;> rfl

theorem reg_logicResult_of_ne (s : State) {x q : Reg} (hx : q ≠ x) (hvf : q ≠ Reg.vf) (r : Byte) :
    (s.logicResult x r).reg q = s.reg q := by simp [hx, hvf]

/-- With the quirk the reset of `VF` is last, `X = F` included. -/
theorem reg_logicResult_vf_of_quirk {s : State} (h : s.cfg.quirkLogicVfReset = true) (x : Reg) (r : Byte) :
    (s.logicResult x r).reg Reg.vf = 0 := by simp [h]

theorem reg_logicResult_self_of_ne_vf (s : State) {x : Reg} (h : x ≠ Reg.vf) (r : Byte) :
    (s.logicResult x r).reg x = r := by simp [h]

/-- Without the quirk the result is the one register write. -/
theorem reg_logicResult_of_no_quirk {s : State} (h : s.cfg.quirkLogicVfReset = false) (x q : Reg) (r : Byte) :
    (s.logicResult x r).reg q = if q = x then r else s.reg q := by simp [h]

/-- Settles O17: the three instructions hand their bitwise result to one operation, read off for each setting of the quirk. -/
theorem logicResultAndQuirkFlag : Obligations.LogicResultAndQuirkFlag := by
  intro s x y i result hi
  have hexec : exec i s = .next (s.logicResult x result) := by
    obtain ⟨rfl, rfl⟩ | ⟨rfl, rfl⟩ | ⟨rfl, rfl⟩ := hi <;> rfl
  refine ⟨_, hexec, logicResult_eq s x result, fun _ hx hvf => reg_logicResult_of_ne s hx hvf result, ?quirk, ?noQuirk⟩
  case quirk =>
    intro hq
    exact ⟨reg_logicResult_vf_of_quirk hq x result, fun hx => reg_logicResult_self_of_ne_vf s hx result⟩
  case noQuirk =>
    intro hq
    have hreg := fun q => reg_logicResult_of_no_quirk hq x q result
    exact ⟨(hreg x).trans (if_pos rfl), fun hx => (hreg Reg.vf).trans (if_neg hx.symm)⟩

/-! ### A result, then a flag (R174 to R178) -/

/-- What an instruction answers that writes its result and then its flag: nothing but `V[X]`, `VF` and `PC` differs, `VF` has
the flag's property `Q` and, unless `VF` is the register written first, `V[X]` the result's property `P`. -/
theorem exists_next_of_resultThenFlag {i : Instr} {s : State} {x : Reg} {r g : Byte}
    (h : exec i s = .next (s.resultThenFlag x r g)) (P Q : Byte → Prop) (hr : P r) (hg : Q g) :
    ∃ t, exec i s = .next t ∧ t = { s with v := t.v, pc := s.pc + 2 } ∧
      (∀ q, q ≠ x → q ≠ Reg.vf → t.reg q = s.reg q) ∧ (x ≠ Reg.vf → P (t.reg x)) ∧ Q (t.reg Reg.vf) := by
  refine ⟨_, h, rfl, ?others, ?result, ?flag⟩
  case others =>
    intro q hx hvf
    rw [State.reg_resultThenFlag, if_neg hvf, if_neg hx]
  case result =>
    intro hx
    rw [State.reg_resultThenFlag, if_neg hx, if_pos rfl]
    exact hr
  case flag =>
    rw [State.reg_resultThenFlag, if_pos rfl]
    exact hg

/-! ### The sum (R174) -/

theorem carryFlag_eq (a b : Byte) : carryFlag a b = if a.toNat + b.toNat > 255 then 1 else 0 := by
  simp [carryFlag, flagByte]

/-- Settles O18: the byte written is the sum cut to 8 bits. -/
theorem addRegistersSumAndCarry : Obligations.AddRegistersSumAndCarry := fun s x y =>
  exists_next_of_resultThenFlag rfl (fun b => b.toNat = ((s.reg x).toNat + (s.reg y).toNat) % 256)
    (· = if (s.reg x).toNat + (s.reg y).toNat > 255 then 1 else 0) (BitVec.toNat_ofNat ..) (carryFlag_eq ..)

/-! ### The differences (R175, R177) -/

theorem notBorrowFlag_eq (a b : Byte) : notBorrowFlag a b = if a.toNat < b.toNat then 0 else 1 := by
  unfold notBorrowFlag
  by_cases h : a.toNat < b.toNat <;> simp [flagByte, h]

/-- An integer cut to `w` bits is its non-negative remainder. -/
theorem toNat_ofInt_eq_emod (w : Nat) (k : Int) : ((BitVec.ofInt w k).toNat : Int) = k % (2 ^ w : Nat) := by
  rw [BitVec.toNat_ofInt]
  exact Int.toNat_of_nonneg (Int.emod_nonneg k (Int.natCast_ne_zero.2 (Nat.two_pow_pos w).ne'))

/-- Settles O19: `SUB` and `SUBN` differ in the order of the operands alone. -/
theorem subtractDifferenceAndBorrow : Obligations.SubtractDifferenceAndBorrow := fun s x y =>
  ⟨exists_next_of_resultThenFlag rfl (fun b => (b.toNat : Int) = ((s.reg x).toNat - (s.reg y).toNat : Int) % 256)
      (· = if (s.reg x).toNat < (s.reg y).toNat then 0 else 1) (toNat_ofInt_eq_emod 8 _) (notBorrowFlag_eq ..),
    exists_next_of_resultThenFlag rfl (fun b => (b.toNat : Int) = ((s.reg y).toNat - (s.reg x).toNat : Int) % 256)
      (· = if (s.reg y).toNat < (s.reg x).toNat then 0 else 1) (toNat_ofInt_eq_emod 8 _) (notBorrowFlag_eq ..)⟩

/-! ### The shifts (R176, R178) -/

theorem shiftedOutLow_toNat (b : Byte) : (shiftedOutLow b).toNat = b.toNat % 2 := by
  simp only [shiftedOutLow, flagByte_toNat, BitVec.getLsbD, Nat.testBit_zero, decide_eq_true_eq]
  split <;> omega

theorem shiftedOutHigh_toNat (b : Byte) : (shiftedOutHigh b).toNat = b.toNat / 128 := by
  have hb := b.isLt
  simp only [shiftedOutHigh, flagByte_toNat, BitVec.getLsbD, Nat.testBit_eq_decide_div_mod_eq, decide_eq_true_eq]
  split <;> omega

/-- Half a byte is a byte. -/
theorem toNat_ofNat_half (b : Byte) : (BitVec.ofNat 8 (b.toNat / 2)).toNat = b.toNat / 2 :=
  (BitVec.toNat_ofNat ..).trans (Nat.mod_eq_of_lt (Nat.lt_of_le_of_lt (Nat.div_le_self _ _) b.isLt))

/-- Settles O20: the quirk chooses the source `b`; result and flag are facts about `b` alone. -/
theorem shiftsByOneAndBitOut : Obligations.ShiftsByOneAndBitOut := by
  intro s x y b hb
  have hsource : s.shiftSource x y = b := hb.symm
  subst hsource
  exact ⟨
    exists_next_of_resultThenFlag rfl (·.toNat = (s.shiftSource x y).toNat / 2)
      (·.toNat = (s.shiftSource x y).toNat % 2) (toNat_ofNat_half _) (shiftedOutLow_toNat _),
    exists_next_of_resultThenFlag rfl (·.toNat = (s.shiftSource x y).toNat * 2 % 256)
      (·.toNat = (s.shiftSource x y).toNat / 128) (BitVec.toNat_ofNat ..) (shiftedOutHigh_toNat _)⟩

end Sys2Proof.Machine
end

section
/-! SUPPORT. The index-register instructions (45_index.md R190 to R192): each writes `I` and advances, so the three share one
form of state, and each sum is a number of its own. -/

namespace Sys2Proof.Machine

/-! ### `I` written, then `PC` advanced (R36, R38) -/

theorem setI_advance_eq (s : State) (w : Word) : (s.setI w).advance = { s with i := w, pc := s.pc + 2 } := rfl

/-- What an instruction answers that writes `I` alone: nothing but `I` and `PC` differs, and `I` is the number `n` that the
address written stands for. -/
theorem exists_next_of_setI_advance {i : Instr} {s : State} {w : Word} {n : Nat}
    (h : exec i s = .next (s.setI w).advance) (hw : w.toNat = n) :
    ∃ t, exec i s = .next t ∧ t.i.toNat = n ∧ t = { s with i := t.i, pc := s.pc + 2 } :=
  ⟨_, h, hw, setI_advance_eq s w⟩

/-! ### The load and the masked sum (R190, R191) -/

/-- A number cut to 12 bits needs no further cut to 16. -/
theorem toNat_ofNat_mod_4096 (n : Nat) : (BitVec.ofNat 16 (n % 4096)).toNat = n % 4096 :=
  (BitVec.toNat_ofNat ..).trans (Nat.mod_eq_of_lt ((Nat.mod_lt n (by decide)).trans (by decide)))

/-- Settles O28: the load writes `NNN` itself, and the sum is below 4096 whatever `I` was. -/
theorem indexLoadAndMaskedAdd : Obligations.IndexLoadAndMaskedAdd := fun s =>
  ⟨fun nnn => congrArg Host.Outcome.next (setI_advance_eq s nnn),
    fun _ => exists_next_of_setI_advance rfl (toNat_ofNat_mod_4096 _)⟩

/-! ### The glyph address (R192) -/

theorem glyphAddress_toNat (s : State) (x : Reg) :
    (s.glyphAddress x).toNat = (s.cfg.fontBase.toNat + 5 * (s.reg x).toNat) % 65536 := BitVec.toNat_ofNat ..

/-- Settles O29: the address written is the sum cut to 16 bits, with no mask on `V[X]`. -/
theorem glyphAddressFromFontBase : Obligations.GlyphAddressFromFontBase := fun s x =>
  exists_next_of_setI_advance rfl (glyphAddress_toNat s x)

end Sys2Proof.Machine
end

section
/-! SUPPORT. The keypad (46_keypad.md): the two skips read the key that the low four bits of `V[X]` select (R201, R202), and
the key wait is a state no cycle leaves (R203, R205) and the first release completes (R204). -/

namespace Sys2Proof.Machine

/-! ### The skips (R201, R202) -/

/-- R201: the query of the selected key is the key-down bit numbered `V[X] mod 16`. -/
theorem keyPressed_selectedKey (s : State) (x : Reg) :
    s.keyPressed (s.selectedKey x) = s.keys.getLsbD ((s.reg x).toNat % 16) :=
  congrArg s.keys.getLsbD (BitVec.toNat_ofNat ..)

/-- A skip on a negated test commits `PC + 2` when the test holds and `PC + 4` when not. -/
theorem skipIf_not_eq (s : State) (b : Bool) :
    s.skipIf (!b) = { s with pc := if b = true then s.pc + 2 else s.pc + 4 } := by
  cases b with
  | false => exact skipIf_eq s true
  | true => exact skipIf_eq s false

/-- Settles O30: both skips ask for the same key, one of them negated. -/
theorem keySkips : Obligations.KeySkips := by
  intro s x down hdown
  rw [← keyPressed_selectedKey] at hdown
  subst hdown
  exact ⟨congrArg Host.Outcome.next (skipIf_eq s _), congrArg Host.Outcome.next (skipIf_not_eq s _)⟩

/-! ### Entering the wait (R203) -/

theorem awaitKey_advance_eq (s : State) (x : Reg) :
    (s.awaitKey x).advance = { s with wait := true, wreg := x, pc := s.pc + 2 } := rfl

/-- Settles O31: the state is the wait entered, then `PC` advanced. -/
theorem waitForKeySuspends : Obligations.WaitForKeySuspends := fun s x =>
  congrArg Host.Outcome.next (awaitKey_advance_eq s x)

/-! ### The release (R204) -/

theorem keyRelease_of_wait {s : State} (h : s.wait = true) (code : Key) :
    s.keyRelease code = { s.setReg s.wreg (code.setWidth 8) with wait := false } := if_pos h

theorem keyRelease_of_no_wait {s : State} (h : s.wait = false) (code : Key) : s.keyRelease code = s :=
  if_neg (Bool.eq_false_iff.1 h)

/-- A release that completes a wait writes the code to the destination register and no other register. -/
theorem reg_keyRelease_of_wait {s : State} (h : s.wait = true) (code : Key) (r : Reg) :
    (s.keyRelease code).reg r = if r = s.wreg then code.setWidth 8 else s.reg r := by
  rw [keyRelease_of_wait h]
  exact State.reg_setReg s s.wreg r _

/-- `zext_8` keeps a key code's number. -/
theorem toNat_setWidth_key (code : Key) : (code.setWidth 8).toNat = code.toNat :=
  BitVec.toNat_setWidth_of_le (by decide)

/-- A step that takes a release is `State.keyRelease` on the state without the event. -/
theorem step_of_keyRelease {s : State} {code : Key} {rest : List Event} (h : s.pending = .keyRelease code :: rest) :
    step s = .next ((s.setPending rest).keyRelease code) := step_of_event h

/-- Settles O32: the event finds the state without it waiting or not, and neither `SCHED` nor `FLT` is looked at. -/
theorem keyReleaseCompletesWait : Obligations.KeyReleaseCompletesWait := by
  intro s code rest hp
  refine ⟨fun hwait => ?waiting, fun hwait => ?notWaiting⟩
  case waiting =>
    have hreg := reg_keyRelease_of_wait (s := s.setPending rest) hwait code
    refine ⟨_, step_of_keyRelease hp, ?code, fun r hr => (hreg r).trans (if_neg hr), ?frame⟩
    case code =>
      rw [hreg, State.setPending_wreg, if_pos rfl]
      exact toNat_setWidth_key code
    case frame => rw [keyRelease_of_wait (s := s.setPending rest) hwait]; rfl
  case notWaiting =>
    rw [step_of_keyRelease hp, keyRelease_of_no_wait (s := s.setPending rest) hwait]
    rfl

/-! ### The wait as a whole (R203 to R205) -/

/-- A state that a step leaves as it is, every run leaves as it is. -/
theorem run_of_step_self {s : State} (h : step s = .next s) (n : Nat) : Sys2Proof.core.run n s = .next s := by
  induction n with
  | zero => exact run_zero s
  | succ n ih => exact (run_succ_of_next h n).trans ih

/-- Settles O33: after `FX0A` the core waits, so a step with no event is no change, and O32's first clause is the release. -/
theorem waitHoldsUntilRelease : Obligations.WaitHoldsUntilRelease := by
  intro s x code
  refine ⟨(s.awaitKey x).advance, rfl, ?holds, ?resumes⟩
  case holds =>
    obtain ⟨-, hidle, -⟩ := heldCycleDoesNothing ((s.awaitKey x).advance.setPending []) (.inl rfl)
    exact run_of_step_self (hidle rfl)
  case resumes =>
    obtain ⟨hcompletes, -⟩ := keyReleaseCompletesWait ((s.awaitKey x).advance.setPending [.keyRelease code]) code [] rfl
    obtain ⟨u, hstep, hcode, -, hframe⟩ := hcompletes rfl
    exact ⟨u, hstep, congrArg State.wait hframe, hcode, congrArg State.pc hframe⟩

end Sys2Proof.Machine
end

section
/-! SUPPORT. Completing or faulting (60_exceptions.md R234 to R237): the spec's fault of a data access decides the model's range
check, so each instruction's own fault tells which of its two outcomes it takes. Then every step answers a next state. -/

namespace Sys2Proof.Machine

/-! ### The range check (R220, R234) -/

theorem rangeFault_succ_of_ge {s : State} {k : Nat} (h : s.i.toNat + k ≥ s.cfg.memSize) :
    s.rangeFault (k + 1) = some (.outOfBoundsAccess, max s.i.toNat s.cfg.memSize) := if_pos h

theorem rangeFault_succ_of_lt {s : State} {k : Nat} (h : s.i.toNat + k < s.cfg.memSize) : s.rangeFault (k + 1) = none :=
  if_neg (Nat.not_le.2 h)

/-- A data access that has a fault takes it. -/
theorem rangeCheck_of_fault {s : State} {n k : Nat} {c : FaultCause} (r : Result) (hn : 0 < n)
    (h : s.rangeFault n = some (c, k)) :
    (if s.dataFails n then s.raiseOutOfBounds s.base else r) = s.raise c k := by
  unfold State.rangeFault at h
  split at h
  · cases h
    exact if_pos ((dataFails_iff s n).2 ⟨hn, ‹_›⟩)
  · cases h

/-- A data access that has none goes on. -/
theorem rangeCheck_of_no_fault {s : State} {n : Nat} (r : Result) (h : s.rangeFault n = none) :
    (if s.dataFails n then s.raiseOutOfBounds s.base else r) = r := by
  unfold State.rangeFault at h
  split at h
  · cases h
  · exact if_neg fun hfails => ‹¬ _› ((dataFails_iff s n).1 hfails).2

/-! ### An instruction's own fault (R235 to R237) -/

/-- Settles O49: `RET` and `CALL` fault on the stack, the four data accesses on their range, no other instruction at all. -/
theorem ownFaultIsTakenPrecisely : Obligations.OwnFaultIsTakenPrecisely := by
  intro i s c k h
  cases i with
  | ret =>
    obtain ⟨hempty, hfault⟩ := Option.ite_none_right_eq_some.1 h
    cases hfault
    exact exec_ret_of_empty hempty
  | call nnn =>
    obtain ⟨hfull, hfault⟩ := Option.ite_none_right_eq_some.1 h
    cases hfault
    exact exec_call_of_full hfull nnn
  | drwVxVyN x y n =>
    obtain ⟨hn, hfault⟩ := Option.ite_none_left_eq_some.1 h
    exact rangeCheck_of_fault _ (Nat.pos_of_ne_zero hn) hfault
  | ldBVx _ | ldMemIVx _ | ldVxMemI _ => exact rangeCheck_of_fault _ (Nat.succ_pos _) h
  | _ => cases h

/-- Settles O50: where the check passes, the state the meaning names keeps `FLT` and `SCHED`. -/
theorem everyInstructionCompletesWithoutOwnFault : Obligations.EveryInstructionCompletesWithoutOwnFault := by
  intro i s h
  cases i with
  | ret =>
    have hstk : s.stk ≠ [] := fun hnil => by simp [Instr.ownFault, (sp_eq_zero s).2 hnil] at h
    exact ⟨_, exec_ret_of_concat (List.dropLast_concat_getLast hstk).symm, rfl, rfl⟩
  | call nnn =>
    have hroom : s.sp ≠ s.cfg.stackDepth := fun hfull => by simp [Instr.ownFault, hfull] at h
    exact ⟨_, exec_call_of_room hroom nnn, rfl, rfl⟩
  | drwVxVyN x y n =>
    cases n with
    | zero => exact ⟨_, exec_drwVxVyN_of_fits (.inl rfl) x y, by simp [State.drawn], by simp [State.drawn]⟩
    | succ n =>
      have hfault : s.rangeFault (n + 1) = none := by simpa [Instr.ownFault] using h
      exact ⟨_, rangeCheck_of_no_fault _ hfault, by simp, by simp⟩
  | ldBVx _ | ldMemIVx _ | ldVxMemI _ => exact ⟨_, rangeCheck_of_no_fault _ h, by simp, by simp⟩
  | _ => exact ⟨_, rfl, by simp, by simp⟩

/-! ### Every step answers a next state (R236, R239) -/

theorem exec_answers_next (i : Instr) (s : State) : ∃ t, exec i s = .next t := by
  cases h : i.ownFault s with
  | some fault =>
    obtain ⟨c, k⟩ := fault
    exact ⟨_, ownFaultIsTakenPrecisely i s c k h⟩
  | none =>
    obtain ⟨t, ht, -⟩ := everyInstructionCompletesWithoutOwnFault i s h
    exact ⟨t, ht⟩

theorem cycle_answers_next (s : State) : ∃ t, cycle s = .next t := by
  obtain ⟨-, e⟩ | ⟨-, -, e⟩ | ⟨-, -, -, e⟩ | ⟨-, -, i, -, e⟩ := cycle_cases s <;> rw [e]
  · exact ⟨_, rfl⟩
  · exact ⟨_, rfl⟩
  · exact ⟨_, rfl⟩
  · exact exec_answers_next i s

theorem schedulerCycle_answers_next (s : State) : ∃ t, schedulerCycle s = .next t := by
  cases hs : s.sched with
  | stopped => exact ⟨s, schedulerCycle_stopped hs⟩
  | started => exact schedulerCycle_started hs ▸ cycle_answers_next s

theorem deliver_answers_next (e : Event) (s : State) : ∃ t, deliver e s = .next t := by
  cases e with
  | cycle => exact schedulerCycle_answers_next s
  | step => exact cycle_answers_next s
  | _ => exact ⟨_, rfl⟩

/-- Settles O12: a step is nothing, a `Cycle` or an event. -/
theorem stepAlwaysAnswersNext : Obligations.StepAlwaysAnswersNext := by
  intro s
  obtain ⟨-, -, e⟩ | ⟨-, -, e⟩ | ⟨_, _, -, e⟩ := step_cases s <;> rw [e]
  · exact ⟨s, rfl⟩
  · exact cycle_answers_next s
  · exact deliver_answers_next _ _

end Sys2Proof.Machine
end

section
/-! SUPPORT. The memory transfers (48_memory_transfer.md R221 to R223): what each answers when its cells lie inside memory, and
the cells it stores or loads. When they do not, it is the fault of 60_exceptions.md R236. -/

namespace Sys2Proof.Machine

/-- A cell of a run of stored bytes holds the byte at its offset. -/
theorem Memory.read_writeBytes_inside {m : Memory} (hm : m.wf) (a : Nat) {bs : List Byte} {k : Nat} (hk : k < bs.length) :
    (m.writeBytes a bs).read (a + k) = bs[k] := by
  rw [Memory.read_writeBytes hm, if_pos (by omega), Nat.add_sub_cancel_left, List.getD_eq_getElem bs 0 hk]

/-! ### Three decimal digits (R221) -/

theorem exec_ldBVx_of_fits {s : State} (h : s.i.toNat + 2 < s.cfg.memSize) (x : Reg) :
    exec (.ldBVx x) s = .next (s.store s.base (bcdDigits (s.reg x))).advance :=
  rangeCheck_of_no_fault _ (rangeFault_succ_of_lt h)

/-- A number not above a byte's is a byte's. -/
theorem toNat_ofNat_of_le (b : Byte) {n : Nat} (h : n ≤ b.toNat) : (BitVec.ofNat 8 n).toNat = n :=
  (BitVec.toNat_ofNat ..).trans (Nat.mod_eq_of_lt (Nat.lt_of_le_of_lt h b.isLt))

/-- Settles O38: no digit is above the number, so each is the byte stored; out of range it is O49. -/
theorem bcdWritesThreeDigits : Obligations.BcdWritesThreeDigits := by
  intro s x hwf
  refine ⟨fun hfit => ?stored, fun hout => ownFaultIsTakenPrecisely (.ldBVx x) s _ _ (rangeFault_succ_of_ge hout)⟩
  case stored =>
    have hcell {k : Nat} (hk : k < 3) := Memory.read_writeBytes_inside hwf s.base (bs := bcdDigits (s.reg x)) hk
    refine ⟨_, exec_ldBVx_of_fits hfit x, ?hundreds, ?tens, ?ones, fun a ha => Memory.read_writeBytes_outside hwf ha, rfl⟩
    case hundreds => exact (congrArg _ (hcell (k := 0) (by decide))).trans (toNat_ofNat_of_le (s.reg x) (by omega))
    case tens => exact (congrArg _ (hcell (k := 1) (by decide))).trans (toNat_ofNat_of_le (s.reg x) (by omega))
    case ones => exact (congrArg _ (hcell (k := 2) (by decide))).trans (toNat_ofNat_of_le (s.reg x) (by omega))

/-! ### Registers stored (R222) -/

/-- Settles O39: the cells are those of one store, and `I` is the sum cut to 16 bits; out of range it is O49. -/
theorem storeRegistersAdvancesIndex : Obligations.StoreRegistersAdvancesIndex := by
  intro s x hwf
  refine ⟨fun hfit => ?stored, fun hout => ownFaultIsTakenPrecisely (.ldMemIVx x) s _ _ (rangeFault_succ_of_ge hout)⟩
  case stored =>
    refine ⟨_, exec_ldMemIVx_of_fits hfit, fun r hr => Memory.read_writeBytes_regsUpTo hwf s s.base hr, fun a ha => ?others,
      BitVec.toNat_ofNat .., rfl⟩
    case others => exact Memory.read_writeBytes_outside hwf (by rwa [regsUpTo_length])

/-! ### Registers loaded (R223) -/

theorem exec_ldVxMemI_of_fits {s : State} {x : Reg} (h : s.i.toNat + x.val < s.cfg.memSize) :
    exec (.ldVxMemI x) s = .next (s.loadRegs s.base x).advance :=
  rangeCheck_of_no_fault _ (rangeFault_succ_of_lt h)

theorem reg_loadRegs_advance (s : State) (x r : Reg) :
    (s.loadRegs s.base x).advance.reg r = if r ≤ x then s.mem.read (s.i.toNat + r.val) else s.reg r := by
  rw [State.reg_advance, State.reg_loadRegs, State.base]

theorem loadRegs_advance_eq (s : State) (a : Nat) (x : Reg) :
    (s.loadRegs a x).advance = { s with v := (s.loadRegs a x).advance.v, pc := s.pc + 2 } := by
  simp only [State.advance, State.setPc, State.npc, State.loadRegs]

/-- Settles O40: `FX65` writes the registers alone; out of range it is O49. -/
theorem loadRegistersKeepsIndex : Obligations.LoadRegistersKeepsIndex := by
  intro s x
  refine ⟨fun hfit => ?loaded, fun hout => ownFaultIsTakenPrecisely (.ldVxMemI x) s _ _ (rangeFault_succ_of_ge hout)⟩
  case loaded =>
    refine ⟨_, exec_ldVxMemI_of_fits hfit, fun r hr => ?upTo, fun r hr => ?higher, loadRegs_advance_eq s s.base x⟩
    case upTo => rw [reg_loadRegs_advance, if_pos hr]
    case higher => rw [reg_loadRegs_advance, if_neg (not_le.2 hr)]

/-- Settles O41: each register is loaded from the cell it was stored in. -/
theorem saveThenRestoreRegisters : Obligations.SaveThenRestoreRegisters := by
  intro s x hwf hfit
  refine ⟨_, exec_ldMemIVx_of_fits hfit, fun t' hmem hi hcfg => ?_⟩
  have hload : t'.i.toNat + x.val < t'.cfg.memSize := by rwa [hi, hcfg]
  refine ⟨_, exec_ldVxMemI_of_fits hload, fun r hr => ?_⟩
  rw [reg_loadRegs_advance, if_pos hr, hmem, hi]
  exact Memory.read_writeBytes_regsUpTo hwf s s.base hr

end Sys2Proof.Machine
end

section
/-! SUPPORT. The timers (47_timers.md R210 to R213): the three timer instructions, and the tick while STARTED. -/

namespace Sys2Proof.Machine

/-- Settles O34: `FX07` writes `V[X]` alone, `FX15` and `FX18` one timer each. -/
theorem timerInstructions : Obligations.TimerInstructions := fun s x =>
  ⟨⟨_, rfl, reg_setReg_advance_self s x s.dt, fun _ hr => reg_setReg_advance_of_ne s hr s.dt, setReg_advance_eq s x s.dt⟩,
    rfl, rfl⟩

/-- Settles O35: the tick never looks at `WAIT`. -/
theorem tickCountsBothDown : Obligations.TickCountsBothDown := fun s _ hp hs =>
  ⟨_, step_of_tick hp hs, countDown_toNat s.dt, countDown_toNat s.st, rfl⟩

end Sys2Proof.Machine
end

section
/-! SUPPORT. The host's operations (60_exceptions.md R250 to R256), the core while STOPPED (R246) or faulted (R239), and
`Reset` (70_reset_and_hazards.md R270): each is the step that takes the event. -/

namespace Sys2Proof.Machine

/-! ### Loads (R250, R251) -/

theorem hostLoad_of_fits {s : State} {a : Nat} {bs : List Byte} (h : a + bs.length ≤ s.cfg.memSize) :
    s.hostLoad a bs = s.store a bs := if_pos h

theorem hostLoad_of_not_fits {s : State} {a : Nat} {bs : List Byte} (h : a + bs.length > s.cfg.memSize) :
    s.hostLoad a bs = s := if_neg (Nat.not_le.2 h)

/-- `Load` and `LoadFont` are the same step. -/
theorem step_of_load {s : State} {a : Nat} {bs : List Byte} {rest : List Event}
    (h : s.pending = .load a bs :: rest ∨ s.pending = .loadFont a bs :: rest) :
    step s = .next ((s.setPending rest).hostLoad a bs) := by
  obtain h | h := h
  · exact step_of_event h
  · exact step_of_event h

/-- Settles O56: the load that fits is one store. -/
theorem loadWritesWholeOrNothing : Obligations.LoadWritesWholeOrNothing := by
  intro s a bs rest hwf hp
  rw [step_of_load hp]
  refine ⟨fun hfit => ?fits, fun hout => congrArg Host.Outcome.next (hostLoad_of_not_fits (s := s.setPending rest) hout)⟩
  case fits =>
    exact ⟨_, congrArg Host.Outcome.next (hostLoad_of_fits (s := s.setPending rest) hfit),
      fun k hk => Memory.read_writeBytes_inside hwf a hk, fun c hc => Memory.read_writeBytes_outside hwf hc, rfl⟩

/-! ### Start, stop and reset (R253, R254, R270) -/

/-- Settles O57: `Stop` writes `SCHED` alone. -/
theorem stopLeavesStateUntouched : Obligations.StopLeavesStateUntouched := fun _ _ hp => step_of_event hp

theorem hostStart_of_no_fault {s : State} (h : s.flt = none) : s.hostStart = { s with sched := .started } :=
  if_pos (Option.isNone_iff_eq_none.2 h)

/-- R253: `Start` has no effect on a faulted core. -/
theorem hostStart_of_faulted {s : State} (h : s.faulted) : s.hostStart = s :=
  if_neg (by simpa [Option.isSome_iff_ne_none] using h)

/-- Settles O58: the two answers of `Start`. -/
theorem startOnlyWithoutFault : Obligations.StartOnlyWithoutFault := by
  intro s rest hp
  rw [step_of_event hp]
  exact ⟨fun hnone => congrArg Host.Outcome.next (hostStart_of_no_fault (s := s.setPending rest) hnone),
    fun hfault => congrArg Host.Outcome.next (hostStart_of_faulted (s := s.setPending rest) hfault)⟩

/-- Settles O59: `Reset` writes every field of the CORE with its value at construction. -/
theorem resetReturnsToConstruction : Obligations.ResetReturnsToConstruction := fun _ _ hp => step_of_event hp

/-! ### A stopped core (R213, R246) -/

theorem timerTick_of_stopped {s : State} (h : s.sched = .stopped) : s.timerTick = s := by
  simp [State.timerTick, h]

/-- Settles O11: no event, a scheduler's `Cycle` and a tick each find the core STOPPED. -/
theorem stoppedCoreIdles : Obligations.StoppedCoreIdles := fun s hs =>
  ⟨fun hp => step_of_stopped hp hs,
    fun rest hp => (step_of_event hp).trans (schedulerCycle_stopped (s := s.setPending rest) hs),
    fun rest hp => (step_of_event hp).trans
      (congrArg Host.Outcome.next (timerTick_of_stopped (s := s.setPending rest) hs))⟩

/-! ### A faulted core (R101, R239, R256) -/

/-- R101: a recorded fault holds back the scheduler's `Cycle` too, STARTED or not. -/
theorem schedulerCycle_of_faulted {s : State} (h : s.faulted) : schedulerCycle s = .next s := by
  cases hs : s.sched with
  | stopped => exact schedulerCycle_stopped hs
  | started => exact (schedulerCycle_started hs).trans (cycle_of_held ((held_iff s).2 (.inr h)))

/-- What a recorded fault protects: the record, `PC`, `I`, the stack and the display, and a scheduler that stopped. -/
structure State.KeepsHalt (s t : State) : Prop where
  flt : t.flt = s.flt := by simp
  pc : t.pc = s.pc := by simp
  i : t.i = s.i := by simp
  stk : t.stk = s.stk := by simp
  fb : t.fb = s.fb := by simp
  stopped : s.sched = .stopped → t.sched = .stopped := by simp

theorem keepsHalt_of_next {s t u : State} (h : Host.Outcome.next u = (.next t : Result)) (hu : s.KeepsHalt u) :
    s.KeepsHalt t := by
  cases h
  exact hu

/-- On a faulted core every event but `Reset` keeps what the fault protects: both cycles are held back and `Start` has no
effect, and the other events write none of it. -/
theorem deliver_keepsHalt {e : Event} {s t : State} (hf : s.faulted) (he : e ≠ .reset) (h : deliver e s = .next t) :
    s.KeepsHalt t := by
  cases e with
  | reset => exact absurd rfl he
  | cycle => exact keepsHalt_of_next ((schedulerCycle_of_faulted hf).symm.trans h) {}
  | step => exact keepsHalt_of_next ((cycle_of_held ((held_iff s).2 (.inr hf))).symm.trans h) {}
  | start => exact keepsHalt_of_next h (by rw [hostStart_of_faulted hf]; exact {})
  | stop => exact keepsHalt_of_next h { stopped := fun _ => rfl }
  | _ => exact keepsHalt_of_next h {}

theorem step_keepsHalt {s t : State} (hf : s.faulted) (hp : s.pending.head? ≠ some .reset) (h : step s = .next t) :
    s.KeepsHalt t := by
  obtain ⟨-, -, e⟩ | ⟨-, -, e⟩ | ⟨event, rest, hcons, e⟩ := step_cases s <;> rw [e] at h
  · exact keepsHalt_of_next h {}
  · exact keepsHalt_of_next ((cycle_of_held ((held_iff s).2 (.inr hf))).symm.trans h) {}
  · have hevent : event ≠ .reset := fun hreset => hp (by rw [hcons, hreset]; rfl)
    obtain ⟨hflt, hpc, hi, hstk, hfb, hstopped⟩ := deliver_keepsHalt (s := s.setPending rest) hf hevent h
    exact ⟨hflt, hpc, hi, hstk, hfb, hstopped⟩

/-- Settles O51: the fields of `State.KeepsHalt`. -/
theorem recordedFaultIsSticky : Obligations.RecordedFaultIsSticky := by
  intro s t r hr hp h
  obtain ⟨hflt, hpc, hi, hstk, hfb, hstopped⟩ := step_keepsHalt (Option.isSome_of_eq_some hr) hp h
  exact ⟨hflt.trans hr, hpc, hi, hstk, hfb, hstopped⟩

/-- From a faulted core scheduled cycles only consume themselves. -/
theorem run_cycles_of_faulted (n : Nat) (s : State) (rest : List Event) (hf : s.faulted)
    (hp : s.pending = List.replicate n .cycle ++ rest) : Sys2Proof.core.run n s = .next { s with pending := rest } := by
  induction n generalizing s with
  | zero =>
    obtain rfl : s.pending = rest := hp
    exact run_zero s
  | succ n ih =>
    have hstep : step s = .next (s.setPending (List.replicate n .cycle ++ rest)) :=
      (step_of_event hp).trans (schedulerCycle_of_faulted (s := s.setPending _) hf)
    exact (run_succ_of_next hstep n).trans (ih _ hf rfl)

/-- Settles O60: a batch is its cycles put before the later events, and its second clause is `run_cycles_of_faulted`. -/
theorem runChunkIsCyclesInOrder : Obligations.RunChunkIsCyclesInOrder :=
  ⟨fun _ _ _ hp => step_of_event hp, run_cycles_of_faulted⟩

end Sys2Proof.Machine
end
